-- ==== Sys2Proof/Word.lean ====
section
/-! DEFINITION. The two word types of the core: the 8-bit byte and the 16-bit address (R11). -/
namespace Sys2Proof

/-- A byte: the width of the data bus and of every register but PC (R11). -/
abbrev Byte := BitVec 8

/-- A 16-bit address or PC value (R11); arithmetic on it wraps modulo 65536 (R62). -/
abbrev Addr := BitVec 16

end Sys2Proof
end

