-- ==== Sys2Proof/Config.lean ====
section
/-! DEFINITION. The free values of the model: what the spec leaves open for the machine to go on with. None has a body,
so no proof can learn a value of one. -/
namespace Sys2Proof

/-- V after a decimal-mode ADC or SBC in the step with this number: the spec's `draw()` (R21, R164, D6; log entry 3). -/
opaque Config.decimalV : Nat → Bool

/-- `BcdAddNonBcd(a, m, cin)`: result byte and carry of a decimal ADC when an operand is not packed BCD (R163(b), D7; log entry 4). -/
opaque Config.bcdAddNonBcd : Byte → Byte → Bool → Byte × Bool

/-- `BcdSubNonBcd(a, m, cin)`: result byte and carry of a decimal SBC when an operand is not packed BCD (R167(b), D7; log entry 4). -/
opaque Config.bcdSubNonBcd : Byte → Byte → Bool → Byte × Bool

/-- What a read outside `PlainRam` answers: the access with this ordinal in the step with this number (R66, D13; log entry 5). -/
opaque Config.deviceByte : Nat → Nat → Byte

/-- What the host's own read between steps answers at an address outside `PlainRam`, after this number of steps begun (R66, R342,
U7; log entry 30). -/
opaque Config.hostDeviceByte : Nat → Addr → Byte

end Sys2Proof
end

