-- ==== Sys2Proof/Syntax.lean ====
section
/-! DEFINITION. The instructions as data: one constructor per mnemonic of spec/opcode_table.json, the table's rows of one
mnemonic told apart by the operand (R91, R94, R95; log entry 8). -/
namespace Sys2Proof

/-- The instruction formats of R91, one per addressing mode, and BRK's. -/
inductive Format where
  | imp | acc | imm | zp | zpx | zpy | abs | abx | aby | izx | izy | ind | rel | brk
  deriving DecidableEq, Repr

/-- The modes that resolve to an effective address of a data byte (R125 to R131). -/
inductive MemMode where
  /-- zero page, `$nn` (R125) -/
  | zp (b : Byte)
  /-- zero page,X, `$nn,X` (R126) -/
  | zpx (b : Byte)
  /-- zero page,Y, `$nn,Y` (R127) -/
  | zpy (b : Byte)
  /-- absolute, `$nnnn` (R128) -/
  | abs (w : Addr)
  /-- absolute,X, `$nnnn,X` (R129) -/
  | abx (w : Addr)
  /-- absolute,Y, `$nnnn,Y` (R129) -/
  | aby (w : Addr)
  /-- indexed indirect, `($nn,X)` (R130) -/
  | izx (b : Byte)
  /-- indirect indexed, `($nn),Y` (R131) -/
  | izy (b : Byte)
  deriving DecidableEq, Repr

/-- The operand of an instruction that reads a byte `M`: immediate (R124) or in memory (R121). -/
inductive Operand where
  | imm (b : Byte)
  | mem (m : MemMode)
  deriving DecidableEq, Repr

/-- What a shift or rotate works on: the accumulator (R123) or a byte of memory (R180). -/
inductive Target where
  | acc
  | mem (m : MemMode)
  deriving DecidableEq, Repr

/-- The operand of JMP: absolute (R235) or indirect (R132, R236). -/
inductive JumpMode where
  | abs (w : Addr)
  | ind (w : Addr)
  deriving DecidableEq, Repr

/-- The 56 operations of R95, and UNDEF for the 105 undefined opcode bytes (R97). -/
inductive Instr where
  -- 41_logical.md
  | ora (o : Operand)
  | and (o : Operand)
  | eor (o : Operand)
  -- 42_add_subtract.md
  | adc (o : Operand)
  | sbc (o : Operand)
  -- 43_shift_rotate.md
  | asl (t : Target)
  | lsr (t : Target)
  | rol (t : Target)
  | ror (t : Target)
  -- 44_compare_incdec_bit.md
  | cmp (o : Operand)
  | cpx (o : Operand)
  | cpy (o : Operand)
  | inc (m : MemMode)
  | dec (m : MemMode)
  | inx
  | iny
  | dex
  | dey
  | bit (m : MemMode)
  -- 45_stack.md
  | pha
  | pla
  | php
  | plp
  -- 46_control_transfer.md
  | brk
  | rti
  | jsr (w : Addr)
  | rts
  | jmp (j : JumpMode)
  | bpl (d : Byte)
  | bmi (d : Byte)
  | bvc (d : Byte)
  | bvs (d : Byte)
  | bcc (d : Byte)
  | bcs (d : Byte)
  | bne (d : Byte)
  | beq (d : Byte)
  -- 47_load_store_transfer.md
  | lda (o : Operand)
  | ldx (o : Operand)
  | ldy (o : Operand)
  | sta (m : MemMode)
  | stx (m : MemMode)
  | sty (m : MemMode)
  | tax
  | tay
  | txa
  | tya
  | tsx
  | txs
  -- 48_flags_nop_undefined.md
  | clc
  | sec
  | cli
  | sei
  | cld
  | sed
  | clv
  | nop
  /-- an undefined opcode byte (R290) -/
  | undef (op : Byte)
  deriving DecidableEq, Repr

/-- The format of a memory mode. -/
def MemMode.format : MemMode → Format
  | .zp _ => .zp | .zpx _ => .zpx | .zpy _ => .zpy | .abs _ => .abs
  | .abx _ => .abx | .aby _ => .aby | .izx _ => .izx | .izy _ => .izy

/-- The format of a read operand. -/
def Operand.format : Operand → Format
  | .imm _ => .imm
  | .mem m => m.format

/-- The format of a shift's target. -/
def Target.format : Target → Format
  | .acc => .acc
  | .mem m => m.format

/-- The format of a jump's operand. -/
def JumpMode.format : JumpMode → Format
  | .abs _ => .abs
  | .ind _ => .ind

/-- The format an instruction is written in (R91). -/
def Instr.format : Instr → Format
  | .ora o | .and o | .eor o | .adc o | .sbc o => o.format
  | .asl t | .lsr t | .rol t | .ror t => t.format
  | .cmp o | .cpx o | .cpy o => o.format
  | .inc m | .dec m | .bit m => m.format
  | .inx | .iny | .dex | .dey => .imp
  | .pha | .pla | .php | .plp => .imp
  | .brk => .brk
  | .rti | .rts => .imp
  | .jsr _ => .abs
  | .jmp j => j.format
  | .bpl _ | .bmi _ | .bvc _ | .bvs _ | .bcc _ | .bcs _ | .bne _ | .beq _ => .rel
  | .lda o | .ldx o | .ldy o => o.format
  | .sta m | .stx m | .sty m => m.format
  | .tax | .tay | .txa | .tya | .tsx | .txs => .imp
  | .clc | .sec | .cli | .sei | .cld | .sed | .clv | .nop | .undef _ => .imp

end Sys2Proof
end

