-- ==== Sys2Proof/Decode.lean ====
section
/-! DEFINITION. The byte-order and widening helpers, the opcode map (R94), the decoder, and after it the encoder. -/
namespace Sys2Proof

/-! ### Byte order and widening -/

/-- Bits 7..0 of a 16-bit value. -/
def loByte (w : Addr) : Byte := w.extractLsb' 0 8

/-- Bits 15..8 of a 16-bit value. -/
def hiByte (w : Addr) : Byte := w.extractLsb' 8 8

/-- `hi:lo`, with `hi` in bits 15..8 (R14). -/
def joinBytes (hi lo : Byte) : Addr := hi ++ lo

/-- `zext_16` (R17). -/
def zext16 (b : Byte) : Addr := b.setWidth 16

/-- `sext_16` (R17). -/
def sext16 (b : Byte) : Addr := b.signExtend 16

/-! ### The opcode map -/

/-- One defined byte of the opcode map: its format, and the instruction it makes of the operand bytes 1 and 2 (R90, R93). -/
structure OpcodeRow where
  format : Format
  make : Byte → Byte → Instr

namespace OpMap

/-- An undefined opcode, `-` in R94. -/
def und : Option OpcodeRow := none
/-- Implied (R122). -/
def imp (i : Instr) : Option OpcodeRow := some ⟨.imp, fun _ _ => i⟩
/-- Implied with a signature byte: BRK's format, the byte ignored (R91, R93). -/
def brk : Option OpcodeRow := some ⟨.brk, fun _ _ => .brk⟩
/-- Accumulator (R123). -/
def acc (f : Target → Instr) : Option OpcodeRow := some ⟨.acc, fun _ _ => f .acc⟩
/-- Immediate (R124). -/
def imm (f : Operand → Instr) : Option OpcodeRow := some ⟨.imm, fun b _ => f (.imm b)⟩
/-- Zero page (R125). -/
def zp (f : MemMode → Instr) : Option OpcodeRow := some ⟨.zp, fun b _ => f (.zp b)⟩
/-- Zero page,X (R126). -/
def zpx (f : MemMode → Instr) : Option OpcodeRow := some ⟨.zpx, fun b _ => f (.zpx b)⟩
/-- Zero page,Y (R127). -/
def zpy (f : MemMode → Instr) : Option OpcodeRow := some ⟨.zpy, fun b _ => f (.zpy b)⟩
/-- Absolute (R128): low byte first (D2; log entry 10). -/
def abs (f : MemMode → Instr) : Option OpcodeRow := some ⟨.abs, fun lo hi => f (.abs (joinBytes hi lo))⟩
/-- Absolute,X (R129). -/
def abx (f : MemMode → Instr) : Option OpcodeRow := some ⟨.abx, fun lo hi => f (.abx (joinBytes hi lo))⟩
/-- Absolute,Y (R129). -/
def aby (f : MemMode → Instr) : Option OpcodeRow := some ⟨.aby, fun lo hi => f (.aby (joinBytes hi lo))⟩
/-- Indexed indirect (R130). -/
def izx (f : MemMode → Instr) : Option OpcodeRow := some ⟨.izx, fun b _ => f (.izx b)⟩
/-- Indirect indexed (R131). -/
def izy (f : MemMode → Instr) : Option OpcodeRow := some ⟨.izy, fun b _ => f (.izy b)⟩
/-- JSR: an absolute target (R233). -/
def jsr : Option OpcodeRow := some ⟨.abs, fun lo hi => .jsr (joinBytes hi lo)⟩
/-- JMP absolute (R235). -/
def jmpAbs : Option OpcodeRow := some ⟨.abs, fun lo hi => .jmp (.abs (joinBytes hi lo))⟩
/-- JMP indirect (R236). -/
def jmpInd : Option OpcodeRow := some ⟨.ind, fun lo hi => .jmp (.ind (joinBytes hi lo))⟩
/-- Relative (R133). -/
def rel (f : Byte → Instr) : Option OpcodeRow := some ⟨.rel, fun d _ => f d⟩

/-- A reading instruction's memory form. -/
def rd (f : Operand → Instr) : MemMode → Instr := fun m => f (.mem m)
/-- A shift's memory form. -/
def sh (f : Target → Instr) : MemMode → Instr := fun m => f (.mem m)

/-- Row 0_ of R94. -/
def row0 : List (Option OpcodeRow) :=
  [brk, izx (rd .ora), und, und, und, zp (rd .ora), zp (sh .asl), und,
   imp .php, imm .ora, acc .asl, und, und, abs (rd .ora), abs (sh .asl), und]
/-- Row 1_ of R94. -/
def row1 : List (Option OpcodeRow) :=
  [rel .bpl, izy (rd .ora), und, und, und, zpx (rd .ora), zpx (sh .asl), und,
   imp .clc, aby (rd .ora), und, und, und, abx (rd .ora), abx (sh .asl), und]
/-- Row 2_ of R94. -/
def row2 : List (Option OpcodeRow) :=
  [jsr, izx (rd .and), und, und, zp .bit, zp (rd .and), zp (sh .rol), und,
   imp .plp, imm .and, acc .rol, und, abs .bit, abs (rd .and), abs (sh .rol), und]
/-- Row 3_ of R94. -/
def row3 : List (Option OpcodeRow) :=
  [rel .bmi, izy (rd .and), und, und, und, zpx (rd .and), zpx (sh .rol), und,
   imp .sec, aby (rd .and), und, und, und, abx (rd .and), abx (sh .rol), und]
/-- Row 4_ of R94. -/
def row4 : List (Option OpcodeRow) :=
  [imp .rti, izx (rd .eor), und, und, und, zp (rd .eor), zp (sh .lsr), und,
   imp .pha, imm .eor, acc .lsr, und, jmpAbs, abs (rd .eor), abs (sh .lsr), und]
/-- Row 5_ of R94. -/
def row5 : List (Option OpcodeRow) :=
  [rel .bvc, izy (rd .eor), und, und, und, zpx (rd .eor), zpx (sh .lsr), und,
   imp .cli, aby (rd .eor), und, und, und, abx (rd .eor), abx (sh .lsr), und]
/-- Row 6_ of R94. -/
def row6 : List (Option OpcodeRow) :=
  [imp .rts, izx (rd .adc), und, und, und, zp (rd .adc), zp (sh .ror), und,
   imp .pla, imm .adc, acc .ror, und, jmpInd, abs (rd .adc), abs (sh .ror), und]
/-- Row 7_ of R94. -/
def row7 : List (Option OpcodeRow) :=
  [rel .bvs, izy (rd .adc), und, und, und, zpx (rd .adc), zpx (sh .ror), und,
   imp .sei, aby (rd .adc), und, und, und, abx (rd .adc), abx (sh .ror), und]
/-- Row 8_ of R94. -/
def row8 : List (Option OpcodeRow) :=
  [und, izx .sta, und, und, zp .sty, zp .sta, zp .stx, und,
   imp .dey, und, imp .txa, und, abs .sty, abs .sta, abs .stx, und]
/-- Row 9_ of R94. -/
def row9 : List (Option OpcodeRow) :=
  [rel .bcc, izy .sta, und, und, zpx .sty, zpx .sta, zpy .stx, und,
   imp .tya, aby .sta, imp .txs, und, und, abx .sta, und, und]
/-- Row A_ of R94. -/
def rowA : List (Option OpcodeRow) :=
  [imm .ldy, izx (rd .lda), imm .ldx, und, zp (rd .ldy), zp (rd .lda), zp (rd .ldx), und,
   imp .tay, imm .lda, imp .tax, und, abs (rd .ldy), abs (rd .lda), abs (rd .ldx), und]
/-- Row B_ of R94. -/
def rowB : List (Option OpcodeRow) :=
  [rel .bcs, izy (rd .lda), und, und, zpx (rd .ldy), zpx (rd .lda), zpy (rd .ldx), und,
   imp .clv, aby (rd .lda), imp .tsx, und, abx (rd .ldy), abx (rd .lda), aby (rd .ldx), und]
/-- Row C_ of R94. -/
def rowC : List (Option OpcodeRow) :=
  [imm .cpy, izx (rd .cmp), und, und, zp (rd .cpy), zp (rd .cmp), zp .dec, und,
   imp .iny, imm .cmp, imp .dex, und, abs (rd .cpy), abs (rd .cmp), abs .dec, und]
/-- Row D_ of R94. -/
def rowD : List (Option OpcodeRow) :=
  [rel .bne, izy (rd .cmp), und, und, und, zpx (rd .cmp), zpx .dec, und,
   imp .cld, aby (rd .cmp), und, und, und, abx (rd .cmp), abx .dec, und]
/-- Row E_ of R94. -/
def rowE : List (Option OpcodeRow) :=
  [imm .cpx, izx (rd .sbc), und, und, zp (rd .cpx), zp (rd .sbc), zp .inc, und,
   imp .inx, imm .sbc, imp .nop, und, abs (rd .cpx), abs (rd .sbc), abs .inc, und]
/-- Row F_ of R94. -/
def rowF : List (Option OpcodeRow) :=
  [rel .beq, izy (rd .sbc), und, und, und, zpx (rd .sbc), zpx .inc, und,
   imp .sed, aby (rd .sbc), und, und, und, abx (rd .sbc), abx .inc, und]

end OpMap

/-- The opcode map of R94, indexed by the opcode byte (the byte values are the standard NMOS set, D8; log entry 9). -/
def opcodeMap : List (Option OpcodeRow) :=
  OpMap.row0 ++ OpMap.row1 ++ OpMap.row2 ++ OpMap.row3 ++ OpMap.row4 ++ OpMap.row5 ++ OpMap.row6 ++ OpMap.row7 ++
  OpMap.row8 ++ OpMap.row9 ++ OpMap.rowA ++ OpMap.rowB ++ OpMap.rowC ++ OpMap.rowD ++ OpMap.rowE ++ OpMap.rowF

/-- The map's entry for an opcode byte; none for an undefined one. -/
def opcodeRow (op : Byte) : Option OpcodeRow := opcodeMap.getD op.toNat none

/-! ### The decoder -/

/-- The format an opcode byte selects; an undefined byte is of format `imp` (R92, R97, R333). -/
def formatOf (op : Byte) : Format :=
  match opcodeRow op with
  | some r => r.format
  | none => .imp

/-- The instruction of an opcode byte and the operand bytes 1 and 2 (those its format lacks are not looked at). -/
def decodeOp (op b1 b2 : Byte) : Instr :=
  match opcodeRow op with
  | some r => r.make b1 b2
  | none => .undef op

/-- The length in bytes of a format (R91). -/
def formatLength : Format → Nat
  | .imp | .acc => 1
  | .imm | .zp | .zpx | .zpy | .izx | .izy | .rel | .brk => 2
  | .abs | .abx | .aby | .ind => 3

/-- The length in bytes of an instruction (R91, R92). -/
def instrLength (i : Instr) : Nat := formatLength i.format

/-- Why a byte string is no instruction: it is empty, or ends before the operand bytes of its opcode. -/
inductive DecodeError where
  /-- no opcode byte; safe, and no step meets it (memory always has a next byte) -/
  | empty
  /-- the opcode's operand bytes are missing; safe, and no step meets it -/
  | truncated (op : Byte)
  deriving DecidableEq, Repr

/-- Reads one instruction from the front of a byte string and answers it with the bytes that follow it (R90 to R93). -/
def decode : List Byte → Except DecodeError (Instr × List Byte)
  | [] => .error .empty
  | op :: rest =>
    let operands := formatLength (formatOf op) - 1
    if rest.length < operands then .error (.truncated op)
    else .ok (decodeOp op (rest.getD 0 0) (rest.getD 1 0), rest.drop operands)

/-- The bytes of a table word, first byte least significant, every bit above `nbits` zero, three bytes (the longest instruction). -/
def tableWordBytes (nbits w : Nat) : List Byte :=
  let v := w % 2 ^ nbits
  [BitVec.ofNat 8 v, BitVec.ofNat 8 (v / 256), BitVec.ofNat 8 (v / 65536)]

/-- The instruction the decoder reads from a table word. -/
def decodeTableWord (nbits w : Nat) : Option Instr :=
  match decode (tableWordBytes nbits w) with
  | .ok (i, _) => some i
  | .error _ => none

/-! ### The encoder, from the 'Encoding' lines of files 41 to 48 -/

/-- The opcodes of an instruction that takes the eight accumulator modes. -/
def accumulatorOpcodes (imm zp zpx abs abx aby izx izy : Byte) : List (Format × Byte) :=
  [(.imm, imm), (.zp, zp), (.zpx, zpx), (.abs, abs), (.abx, abx), (.aby, aby), (.izx, izx), (.izy, izy)]

/-- The opcodes of a shift or rotate. -/
def shiftOpcodes (acc zp zpx abs abx : Byte) : List (Format × Byte) :=
  [(.acc, acc), (.zp, zp), (.zpx, zpx), (.abs, abs), (.abx, abx)]

/-- The modes of an instruction with their opcodes: the 'Encoding' line of its rule. -/
def instrOpcodes : Instr → List (Format × Byte)
  | .ora _ => accumulatorOpcodes 0x09 0x05 0x15 0x0D 0x1D 0x19 0x01 0x11
  | .and _ => accumulatorOpcodes 0x29 0x25 0x35 0x2D 0x3D 0x39 0x21 0x31
  | .eor _ => accumulatorOpcodes 0x49 0x45 0x55 0x4D 0x5D 0x59 0x41 0x51
  | .adc _ => accumulatorOpcodes 0x69 0x65 0x75 0x6D 0x7D 0x79 0x61 0x71
  | .sbc _ => accumulatorOpcodes 0xE9 0xE5 0xF5 0xED 0xFD 0xF9 0xE1 0xF1
  | .asl _ => shiftOpcodes 0x0A 0x06 0x16 0x0E 0x1E
  | .lsr _ => shiftOpcodes 0x4A 0x46 0x56 0x4E 0x5E
  | .rol _ => shiftOpcodes 0x2A 0x26 0x36 0x2E 0x3E
  | .ror _ => shiftOpcodes 0x6A 0x66 0x76 0x6E 0x7E
  | .cmp _ => accumulatorOpcodes 0xC9 0xC5 0xD5 0xCD 0xDD 0xD9 0xC1 0xD1
  | .cpx _ => [(.imm, 0xE0), (.zp, 0xE4), (.abs, 0xEC)]
  | .cpy _ => [(.imm, 0xC0), (.zp, 0xC4), (.abs, 0xCC)]
  | .inc _ => [(.zp, 0xE6), (.zpx, 0xF6), (.abs, 0xEE), (.abx, 0xFE)]
  | .dec _ => [(.zp, 0xC6), (.zpx, 0xD6), (.abs, 0xCE), (.abx, 0xDE)]
  | .inx => [(.imp, 0xE8)]
  | .iny => [(.imp, 0xC8)]
  | .dex => [(.imp, 0xCA)]
  | .dey => [(.imp, 0x88)]
  | .bit _ => [(.zp, 0x24), (.abs, 0x2C)]
  | .pha => [(.imp, 0x48)]
  | .pla => [(.imp, 0x68)]
  | .php => [(.imp, 0x08)]
  | .plp => [(.imp, 0x28)]
  | .brk => [(.brk, 0x00)]
  | .rti => [(.imp, 0x40)]
  | .jsr _ => [(.abs, 0x20)]
  | .rts => [(.imp, 0x60)]
  | .jmp _ => [(.abs, 0x4C), (.ind, 0x6C)]
  | .bpl _ => [(.rel, 0x10)]
  | .bmi _ => [(.rel, 0x30)]
  | .bvc _ => [(.rel, 0x50)]
  | .bvs _ => [(.rel, 0x70)]
  | .bcc _ => [(.rel, 0x90)]
  | .bcs _ => [(.rel, 0xB0)]
  | .bne _ => [(.rel, 0xD0)]
  | .beq _ => [(.rel, 0xF0)]
  | .lda _ => accumulatorOpcodes 0xA9 0xA5 0xB5 0xAD 0xBD 0xB9 0xA1 0xB1
  | .ldx _ => [(.imm, 0xA2), (.zp, 0xA6), (.zpy, 0xB6), (.abs, 0xAE), (.aby, 0xBE)]
  | .ldy _ => [(.imm, 0xA0), (.zp, 0xA4), (.zpx, 0xB4), (.abs, 0xAC), (.abx, 0xBC)]
  | .sta _ => [(.zp, 0x85), (.zpx, 0x95), (.abs, 0x8D), (.abx, 0x9D), (.aby, 0x99), (.izx, 0x81), (.izy, 0x91)]
  | .stx _ => [(.zp, 0x86), (.zpy, 0x96), (.abs, 0x8E)]
  | .sty _ => [(.zp, 0x84), (.zpx, 0x94), (.abs, 0x8C)]
  | .tax => [(.imp, 0xAA)]
  | .tay => [(.imp, 0xA8)]
  | .txa => [(.imp, 0x8A)]
  | .tya => [(.imp, 0x98)]
  | .tsx => [(.imp, 0xBA)]
  | .txs => [(.imp, 0x9A)]
  | .clc => [(.imp, 0x18)]
  | .sec => [(.imp, 0x38)]
  | .cli => [(.imp, 0x58)]
  | .sei => [(.imp, 0x78)]
  | .cld => [(.imp, 0xD8)]
  | .sed => [(.imp, 0xF8)]
  | .clv => [(.imp, 0xB8)]
  | .nop => [(.imp, 0xEA)]
  | .undef op => if undefinedOpcodes.contains op then [(.imp, op)] else []

/-- The operand bytes of a memory mode; a 16-bit operand has its low byte first (R93). -/
def memModeBytes : MemMode → List Byte
  | .zp b | .zpx b | .zpy b | .izx b | .izy b => [b]
  | .abs w | .abx w | .aby w => [loByte w, hiByte w]

/-- The operand bytes of a read operand. -/
def operandBytes : Operand → List Byte
  | .imm b => [b]
  | .mem m => memModeBytes m

/-- The operand bytes of a shift's target. -/
def targetBytes : Target → List Byte
  | .acc => []
  | .mem m => memModeBytes m

/-- The operand bytes of a jump. -/
def jumpModeBytes : JumpMode → List Byte
  | .abs w | .ind w => [loByte w, hiByte w]

/-- The bytes after the opcode; BRK's signature byte is written as 0x00 (any value is admitted, U10; log entry 14). -/
def instrOperandBytes : Instr → List Byte
  | .ora o | .and o | .eor o | .adc o | .sbc o | .cmp o | .cpx o | .cpy o | .lda o | .ldx o | .ldy o => operandBytes o
  | .asl t | .lsr t | .rol t | .ror t => targetBytes t
  | .inc m | .dec m | .bit m | .sta m | .stx m | .sty m => memModeBytes m
  | .jmp j => jumpModeBytes j
  | .jsr w => [loByte w, hiByte w]
  | .bpl d | .bmi d | .bvc d | .bvs d | .bcc d | .bcs d | .bne d | .beq d => [d]
  | .brk => [0x00]
  | .inx | .iny | .dex | .dey | .pha | .pla | .php | .plp | .rti | .rts => []
  | .tax | .tay | .txa | .tya | .tsx | .txs => []
  | .clc | .sec | .cli | .sei | .cld | .sed | .clv | .nop | .undef _ => []

/-- The opcode listed for a format. -/
def lookupOpcode (f : Format) : List (Format × Byte) → Option Byte
  | [] => none
  | (g, op) :: rest => if f = g then some op else lookupOpcode f rest

/-- The bytes of an instruction; none for a term the opcode map has no encoding for. -/
def encode (i : Instr) : Option (List Byte) :=
  (lookupOpcode i.format (instrOpcodes i)).map (fun op => op :: instrOperandBytes i)

end Sys2Proof
end

