-- ==== Sys2Proof/Machine/State.lean ====
section
/-! DEFINITION. The machine's state as plain data, its creation (the spec's reset), and the reasons a step could stop. -/
namespace Sys2Proof.Machine

/-- The status register: seven independently stored flags (R30, R41). Bit 5 of its byte form is not stored (R42). -/
structure Flags where
  /-- Carry (R44) -/
  c : Bool
  /-- Zero (R45) -/
  z : Bool
  /-- Interrupt-Disable (R47) -/
  i : Bool
  /-- Decimal (R48) -/
  d : Bool
  /-- Break (R49) -/
  b : Bool
  /-- Overflow (R46) -/
  v : Bool
  /-- Negative (R45) -/
  n : Bool
  deriving DecidableEq, Repr

/-- Memory: (address, byte) pairs, in the canonical form of `Memory.wf`. -/
abbrev Memory := List Host.Cell

/-- A range of addresses, `base` to `base + size - 1`, that the host has put a peripheral at (R66, R71). -/
structure Window where
  base : Nat
  size : Nat
  deriving DecidableEq, Repr

/-- One access on the memory port (R63). -/
inductive Access where
  /-- `read(address)`, answered with `v` -/
  | read (a : Addr) (v : Byte)
  /-- `write(address, v)` -/
  | write (a : Addr) (v : Byte)
  deriving DecidableEq, Repr

/-- The core's registers and flags (R30), the memory and the parameter `PlainRam` they act on (R60, R66), and two fields of
the model's own, `stepNo` and `port` (log entries 3 and 6). -/
structure State where
  /-- the accumulator (R32) -/
  a : Byte
  /-- index register X (R33) -/
  x : Byte
  /-- index register Y (R34) -/
  y : Byte
  /-- the stack pointer, an offset into page 1 (R36) -/
  sp : Byte
  /-- the program counter (R38) -/
  pc : Addr
  /-- the status register (R41) -/
  sr : Flags
  /-- memory (R60) -/
  mem : Memory
  /-- the addresses outside `PlainRam` (R66); no step changes them -/
  devices : List Window
  /-- the model's own: the number of steps begun, an index for the free values -/
  stepNo : Nat
  /-- the model's own: the accesses the latest step made on the memory port, oldest first (R69) -/
  port : List Access
  deriving DecidableEq, Repr

/-- `InitState` of R330: the register and flag values the caller supplies; a field not supplied is zero (R52, D25). -/
structure InitState where
  a : Byte := 0
  x : Byte := 0
  y : Byte := 0
  sp : Byte := 0
  pc : Addr := 0
  c : Bool := false
  z : Bool := false
  i : Bool := false
  d : Bool := false
  b : Bool := false
  v : Bool := false
  n : Bool := false
  deriving DecidableEq, Repr

/-- Reset: the creation of the processor state from `InitState`, on the host's memory (`InitMem`, R64) and `PlainRam` (R66).
It makes no memory access (R330). DESIGN CHOICE, unsafe: `stepNo` starts at 0 again, so a session created anew draws the same free
values, step for step, as the one before it, where the spec puts no law on draws (R21, R331; log entry 29). -/
def State.create (p : InitState) (mem : Memory) (devices : List Window) : State :=
  { a := p.a, x := p.x, y := p.y, sp := p.sp, pc := p.pc,
    sr := { c := p.c, z := p.z, i := p.i, d := p.d, b := p.b, v := p.v, n := p.n },
    mem := mem, devices := devices, stepNo := 0, port := [] }

/-- The machine right after reset when the caller supplies nothing: every register and flag zero (R52), every address plain
(R66's default), memory with nothing listed (log entries 1, 2 and 5). -/
def State.reset : State := State.create {} [] []

/-- The faults of the machine: none, since the core raises no exception and no access can fail (R300, R62, R334). -/
inductive Fault
  deriving DecidableEq, Repr

/-- The refusals of the machine. -/
inductive Refusal where
  /-- An instruction without a meaning, by mnemonic. Raised by no one: every instruction has its meaning. Safe. -/
  | notModelled (mnemonic : String)
  deriving DecidableEq, Repr

/-- The outcome of an instruction or of a step. -/
abbrev Result := Host.Outcome State Fault Refusal

end Sys2Proof.Machine
end

