-- ==== Sys2Proof/Machine/Flags.lean ====
section
/-! DEFINITION. The status byte and its installs, and every result and flag computation of files 41 to 44. -/
namespace Sys2Proof.Machine

/-! ### The status byte -/

/-- `SRbyte()`: N V 1 B D I Z C, bit 5 always 1 (R41, R42; D3, D4; log entry 11). -/
def Flags.toByte (p : Flags) : Byte :=
  (if p.n then 0x80 else 0x00) ||| (if p.v then 0x40 else 0x00) ||| 0x20 ||| (if p.b then 0x10 else 0x00) |||
  (if p.d then 0x08 else 0x00) ||| (if p.i then 0x04 else 0x00) ||| (if p.z then 0x02 else 0x00) |||
  (if p.c then 0x01 else 0x00)

/-- Every flag from its bit of a status byte, bit 5 discarded (R42, R343). -/
def Flags.ofByte (s : Byte) : Flags :=
  { c := s.getLsbD 0, z := s.getLsbD 1, i := s.getLsbD 2, d := s.getLsbD 3, b := s.getLsbD 4, v := s.getLsbD 6,
    n := s.getLsbD 7 }

/-- `SRinstall_PLP(s)`: B becomes 0 (R43). -/
def Flags.installPlp (s : Byte) : Flags := { Flags.ofByte s with b := false }

/-- `SRinstall_RTI(s)`: B from bit 4 (R43; D5; log entry 12). -/
def Flags.installRti (s : Byte) : Flags := Flags.ofByte s

/-- `SetNZ(v)` on the flags (R19). -/
def Flags.withNZ (p : Flags) (v : Byte) : Flags := { p with n := v.msb, z := decide (v = 0) }

/-! ### Addition and subtraction -/

/-- A result byte with its carry and overflow. -/
structure SumResult where
  r : Byte
  c : Bool
  v : Bool
  deriving DecidableEq, Repr

/-- The bits of a byte's two nibbles (R24). -/
def loNibble (b : Byte) : Nat := b.toNat % 16
/-- The high nibble. -/
def hiNibble (b : Byte) : Nat := b.toNat / 16

/-- A packed BCD byte: both nibbles in 0..9 (R24). -/
def isPackedBcd (b : Byte) : Bool := decide (loNibble b ≤ 9) && decide (hiNibble b ≤ 9)

/-- `AddBinary(a, m, cin)` (R162). -/
def addBinary (a m : Byte) (cin : Bool) : SumResult :=
  let s := a.toNat + m.toNat + cin.toNat
  let r := BitVec.ofNat 8 s
  { r := r, c := decide (s > 0xFF),
    v := decide ((a ^^^ m) &&& 0x80 = 0) && decide ((a ^^^ r) &&& 0x80 ≠ 0) }

/-- `SubBinary(a, m, cin)`; the overflow test is the one the spec derives (R166; log entry 28). -/
def subBinary (a m : Byte) (cin : Bool) : SumResult :=
  let s : Int := (a.toNat : Int) - (m.toNat : Int) - (1 - (cin.toNat : Int))
  let r := BitVec.ofInt 8 s
  { r := r, c := decide (s ≥ 0),
    v := decide ((a ^^^ m) &&& 0x80 ≠ 0) && decide ((a ^^^ r) &&& 0x80 ≠ 0) }

/-- The reference algorithm of `AddDecimal` (R163), normative on packed BCD bytes. -/
def addPackedBcd (a m : Byte) (cin : Bool) : Byte × Bool :=
  let lo0 := loNibble a + loNibble m + cin.toNat
  let lo := if lo0 > 9 then lo0 + 6 else lo0
  let hi0 := hiNibble a + hiNibble m + (if lo > 0x0F then 1 else 0)
  let hi := if hi0 > 9 then hi0 + 6 else hi0
  (BitVec.ofNat 8 (hi % 16 * 16 + lo % 16), decide (hi0 > 9))

/-- The reference algorithm of `SubDecimal` (R167), normative on packed BCD bytes. -/
def subPackedBcd (a m : Byte) (cin : Bool) : Byte × Bool :=
  let lo0 : Int := (loNibble a : Int) - (loNibble m : Int) - (1 - (cin.toNat : Int))
  let lo : Int := if lo0 < 0 then lo0 - 6 else lo0
  let bl : Int := if lo0 < 0 then 1 else 0
  let hi0 : Int := (hiNibble a : Int) - (hiNibble m : Int) - bl
  let hi : Int := if hi0 < 0 then hi0 - 6 else hi0
  (BitVec.ofInt 8 (hi % 16 * 16 + lo % 16), decide (hi0 ≥ 0))

/-- `AddDecimal(a, m, cin)`: the algorithm on packed BCD, the free function on any other operand (R163; log entry 4). -/
def addDecimal (a m : Byte) (cin : Bool) : Byte × Bool :=
  if isPackedBcd a && isPackedBcd m then addPackedBcd a m cin else Config.bcdAddNonBcd a m cin

/-- `SubDecimal(a, m, cin)` (R167; log entry 4). -/
def subDecimal (a m : Byte) (cin : Bool) : Byte × Bool :=
  if isPackedBcd a && isPackedBcd m then subPackedBcd a m cin else Config.bcdSubNonBcd a m cin

/-- ADC's result, carry and overflow; in decimal mode V is the step's draw (R160, R161, R164; log entry 3). -/
def adcResult (p : Flags) (stepNo : Nat) (a m : Byte) : SumResult :=
  if p.d then
    let q := addDecimal a m p.c
    { r := q.1, c := q.2, v := Config.decimalV stepNo }
  else addBinary a m p.c

/-- SBC's result, carry and overflow (R160, R165, R164; log entry 3). -/
def sbcResult (p : Flags) (stepNo : Nat) (a m : Byte) : SumResult :=
  if p.d then
    let q := subDecimal a m p.c
    { r := q.1, c := q.2, v := Config.decimalV stepNo }
  else subBinary a m p.c

/-- The flags after ADC or SBC: C, V, and N and Z from the result byte (R161, R165). -/
def Flags.withSum (p : Flags) (q : SumResult) : Flags := { p.withNZ q.r with c := q.c, v := q.v }

/-! ### Shifts and rotates: (result, bit shifted out) of the operand and the previous carry -/

/-- ASL (R181). -/
def aslResult (m : Byte) (_cin : Bool) : Byte × Bool := (m <<< 1, m.getLsbD 7)
/-- LSR (R182). -/
def lsrResult (m : Byte) (_cin : Bool) : Byte × Bool := (m >>> 1, m.getLsbD 0)
/-- ROL: the previous carry into bit 0 (R183). -/
def rolResult (m : Byte) (cin : Bool) : Byte × Bool := ((m <<< 1) ||| (if cin then 0x01 else 0x00), m.getLsbD 7)
/-- ROR: the previous carry into bit 7 (R184). -/
def rorResult (m : Byte) (cin : Bool) : Byte × Bool := ((if cin then 0x80 else 0x00) ||| (m >>> 1), m.getLsbD 0)

/-! ### Compare and BIT -/

/-- The flags after `Compare(reg, m)` (R190). -/
def Flags.compare (p : Flags) (reg m : Byte) : Flags :=
  { p with c := decide (m.toNat ≤ reg.toNat), z := decide (reg = m), n := (reg - m).msb }

/-- The flags after BIT: Z from `A & M`, N and V from the operand's bits 7 and 6 (R200). -/
def Flags.bitTest (p : Flags) (a m : Byte) : Flags :=
  { p with z := decide (a &&& m = 0), n := m.getLsbD 7, v := m.getLsbD 6 }

end Sys2Proof.Machine
end

