-- ==== Sys2Proof/Machine/Memory.lean ====
section
/-! DEFINITION. Memory as a list of cells in one canonical form: what an unlisted address reads as, reading and writing one
byte, and the form itself. -/
namespace Sys2Proof.Machine

/-- What an address that is not listed reads as. DESIGN CHOICE, unsafe: the spec leaves the initial contents to the host
(R64); log entry 2. -/
def Memory.unlisted : Byte := 0x00

/-- The byte at an address. -/
def Memory.get : Memory → Nat → Byte
  | [], _ => Memory.unlisted
  | (k, v) :: m, a => if k = a then v else Memory.get m a

/-- Puts a cell before the first cell of a higher address. -/
def Memory.insertCell : Memory → Nat → Byte → Memory
  | [], a, v => [(a, v)]
  | (k, w) :: m, a, v => if a < k then (a, v) :: (k, w) :: m else (k, w) :: Memory.insertCell m a v

/-- Memory without the cells of an address. -/
def Memory.removeCell : Memory → Nat → Memory
  | [], _ => []
  | (k, w) :: m, a => if k = a then Memory.removeCell m a else (k, w) :: Memory.removeCell m a

/-- Memory with the byte at an address replaced; the value an unlisted address reads as removes the cell. -/
def Memory.set (m : Memory) (a : Nat) (v : Byte) : Memory :=
  if v = Memory.unlisted then Memory.removeCell m a else Memory.insertCell (Memory.removeCell m a) a v

/-- Every cell is at `lo` or above, addresses strictly rise below 65536, and no cell holds what an unlisted address reads as. -/
def Memory.wfFrom : Nat → Memory → Bool
  | _, [] => true
  | lo, (k, v) :: m => decide (lo ≤ k) && decide (k < 65536) && decide (v ≠ Memory.unlisted) && Memory.wfFrom (k + 1) m

/-- The canonical form: equal memories are equal lists. -/
def Memory.wf (m : Memory) : Bool := Memory.wfFrom 0 m

end Sys2Proof.Machine
end

