-- ==== Sys2Proof/Machine/Ops.lean ====
section
/-! DEFINITION. The named operations over registers and memory: the memory port, the stack unit, the entry and the return
of the core's only trap-like event (BRK and RTI), and the fetch of an instruction. -/
namespace Sys2Proof.Machine

/-! ### Registers -/

/-- `A <- v`. -/
def State.setA (s : State) (v : Byte) : State := { s with a := v }
/-- `X <- v`. -/
def State.setX (s : State) (v : Byte) : State := { s with x := v }
/-- `Y <- v`. -/
def State.setY (s : State) (v : Byte) : State := { s with y := v }
/-- `SP <- v`. -/
def State.setSP (s : State) (v : Byte) : State := { s with sp := v }
/-- `PC <- v`. -/
def State.setPC (s : State) (v : Addr) : State := { s with pc := v }
/-- Writes the status register. -/
def State.setSR (s : State) (p : Flags) : State := { s with sr := p }
/-- `SetNZ(v)` (R19). -/
def State.setNZ (s : State) (v : Byte) : State := s.setSR (s.sr.withNZ v)
/-- `C <- v`. -/
def State.setC (s : State) (v : Bool) : State := s.setSR { s.sr with c := v }

/-! ### The memory port (R63, R66, R69) -/

/-- The window covers the address. -/
def Window.covers (w : Window) (a : Addr) : Bool := decide (w.base ≤ a.toNat) && decide (a.toNat < w.base + w.size)

/-- The address is in `PlainRam` (R66). -/
def State.plain (s : State) (a : Addr) : Bool := !(s.devices.any (fun w => w.covers a))

/-- The byte memory holds at an address: no access, only a look (what a statement about memory speaks of). -/
def State.peek (s : State) (a : Addr) : Byte := s.mem.get a.toNat

/-- Replaces the byte memory holds at an address, making no access. -/
def State.poke (s : State) (a : Addr) (v : Byte) : State := { s with mem := s.mem.set a.toNat v }

/-- Bytes placed in memory from an address on, wrapping modulo 65536. -/
def State.pokeBytes (s : State) (a : Addr) : List Byte → State
  | [] => s
  | b :: bs => (s.poke a b).pokeBytes (a + 1) bs

/-- What the port answers to a read now: the byte last written in `PlainRam`, a free value outside it (R66; log entry 5). -/
def State.answer (s : State) (a : Addr) : Byte :=
  if s.plain a then s.peek a else Config.deviceByte s.stepNo s.port.length

/-- Notes an access on the port. -/
def State.record (s : State) (e : Access) : State := { s with port := s.port ++ [e] }

/-- `MemRead(addr, 1)` (R18). -/
def State.memRead (s : State) (a : Addr) : Byte × State := (s.answer a, s.record (.read a (s.answer a)))

/-- `MemWrite(addr, 1, v)` (R18). Outside `PlainRam` nothing is stored: what the write does there is the host's, and every later
read there is a free value (R66; log entry 5). -/
def State.memWrite (s : State) (a : Addr) (v : Byte) : State :=
  (if s.plain a then s.poke a v else s).record (.write a v)

/-- `Read16(alo, ahi)`: low byte first (R19). -/
def State.read16 (s : State) (alo ahi : Addr) : Addr × State :=
  let lo := s.memRead alo
  let hi := lo.2.memRead ahi
  (joinBytes hi.1 lo.1, hi.2)

/-! ### The stack unit (R210 to R213) -/

/-- The address the stack pointer designates, `0x0100 + SP` (R36). -/
def stackAddr (sp : Byte) : Addr := 0x0100 + zext16 sp

/-- `Push(v)` (R210). -/
def State.push (s : State) (v : Byte) : State :=
  let t := s.memWrite (stackAddr s.sp) v
  t.setSP (t.sp - 1)

/-- `Pull()` (R211). -/
def State.pull (s : State) : Byte × State :=
  let t := s.setSP (s.sp + 1)
  t.memRead (stackAddr t.sp)

/-- Pushes a 16-bit value, high byte first (R212). -/
def State.push16 (s : State) (v : Addr) : State := (s.push (hiByte v)).push (loByte v)

/-- Pulls a 16-bit value, low byte first (R212). -/
def State.pull16 (s : State) : Addr × State :=
  let lo := s.pull
  let hi := lo.2.pull
  (joinBytes hi.1 lo.1, hi.2)

/-! ### Trap entry and return (R305, R306) -/

/-- The BRK vector's low byte (R12). -/
def breakVectorLo : Addr := 0xFFFE
/-- The BRK vector's high byte (R12). -/
def breakVectorHi : Addr := 0xFFFF

/-- Trap entry, from a PC already past the signature byte: pushes PC, then the status with bit 4 forced to 1, sets I, and loads
PC from the vector, in that order (R231, R305; D23; log entry 16). -/
def State.trapEntry (s : State) : State :=
  let t := (s.push16 s.pc).push (s.sr.toByte ||| 0x10)
  let u := t.setSR { t.sr with i := true }
  let r := u.read16 breakVectorLo breakVectorHi
  r.2.setPC r.1

/-- Trap return: pulls the status, then PC low, then PC high; no increment (R232, R306). -/
def State.trapReturn (s : State) : State :=
  let p := s.pull
  let r := (p.2.setSR (Flags.installRti p.1)).pull16
  r.2.setPC r.1

/-! ### Fetch (R19, R77, R333) -/

/-- The start of a step: the port's record starts afresh and the free values move on (log entries 3 and 6). -/
def State.beginStep (s : State) : State := { s with stepNo := s.stepNo + 1, port := [] }

/-- `Fetch8()` (R19). -/
def State.fetch8 (s : State) : Byte × State :=
  let r := s.memRead s.pc
  (r.1, r.2.setPC (s.pc + 1))

/-- Consumes the operand bytes of a format and answers them; BRK's signature byte is skipped without a read (R120, R231; D10;
log entries 13 and 14). -/
def State.fetchOperands (s : State) (f : Format) : (Byte × Byte) × State :=
  match f with
  | .imp | .acc => ((0, 0), s)
  | .brk => ((0, 0), s.setPC (s.pc + 1))
  | .imm | .zp | .zpx | .zpy | .izx | .izy | .rel =>
    let b := s.fetch8
    ((b.1, 0), b.2)
  | .abs | .abx | .aby | .ind =>
    let lo := s.fetch8
    let hi := lo.2.fetch8
    ((lo.1, hi.1), hi.2)

/-- Fetches and decodes the instruction at PC and leaves PC at the byte after it (R38, R333). -/
def State.fetchInstr (s : State) : Instr × State :=
  let op := s.beginStep.fetch8
  let r := op.2.fetchOperands (formatOf op.1)
  (decodeOp op.1 r.1.1 r.1.2, r.2)

end Sys2Proof.Machine
end

