-- ==== Sys2Proof/Machine/Operands.lean ====
section
/-! DEFINITION. The address resolver (40_addressing_modes.md) and what an instruction does with a resolved operand. The operand
bytes have been consumed by the fetch (R22), so resolution only computes and reads pointers. -/
namespace Sys2Proof.Machine

/-- The effective address of a memory mode, and the state after its pointer reads (R125 to R131). -/
def State.resolve (s : State) : MemMode → Addr × State
  | .zp b => (zext16 b, s)
  | .zpx b => (zext16 (b + s.x), s)
  | .zpy b => (zext16 (b + s.y), s)
  | .abs w => (w, s)
  | .abx w => (w + zext16 s.x, s)
  | .aby w => (w + zext16 s.y, s)
  | .izx b => s.read16 (zext16 (b + s.x)) (zext16 (b + s.x + 1))
  | .izy b =>
    let r := s.read16 (zext16 b) (zext16 (b + 1))
    (r.1 + zext16 s.y, r.2)

/-- The high byte of an indirect jump's pointer is in the pointer's own page: the classic defect (R132). -/
def pointerHiAddr (ptr : Addr) : Addr := (ptr &&& 0xFF00) ||| ((ptr + 1) &&& 0x00FF)

/-- The target of a jump (R128, R132). -/
def State.resolveJump (s : State) : JumpMode → Addr × State
  | .abs w => (w, s)
  | .ind w => s.read16 w (pointerHiAddr w)

/-- The byte operand `M`: the immediate byte, or one read at the effective address (R22, R121, R124). -/
def State.loadOperand (s : State) : Operand → Byte × State
  | .imm b => (b, s)
  | .mem m =>
    let e := s.resolve m
    e.2.memRead e.1

/-- A store: one write at the effective address, which is not read (R121). -/
def State.store (s : State) (m : MemMode) (v : Byte) : State :=
  let e := s.resolve m
  e.2.memWrite e.1 v

/-- A read-modify-write: one read and then one write at the effective address, N and Z from the result (R121, R194, R195). -/
def State.modify (s : State) (m : MemMode) (f : Byte → Byte) : State :=
  let e := s.resolve m
  let r := e.2.memRead e.1
  (r.2.memWrite e.1 (f r.1)).setNZ (f r.1)

/-- A shift or rotate by `f`, on the accumulator or on memory; `f` has the operand and the previous carry, and gives the result
and the bit shifted out (R180 to R184). -/
def State.shift (s : State) (t : Target) (f : Byte → Bool → Byte × Bool) : State :=
  match t with
  | .acc =>
    let q := f s.a s.sr.c
    ((s.setA q.1).setC q.2).setNZ q.1
  | .mem m =>
    let e := s.resolve m
    let r := e.2.memRead e.1
    let q := f r.1 s.sr.c
    ((r.2.memWrite e.1 q.1).setC q.2).setNZ q.1

/-- `A <- f(A, M)` with N and Z from the result (R150 to R152). -/
def State.logic (s : State) (o : Operand) (f : Byte → Byte → Byte) : State :=
  let r := s.loadOperand o
  (r.2.setA (f s.a r.1)).setNZ (f s.a r.1)

/-- `A <- r` with C, V, N and Z, for ADC and SBC (R161, R165). -/
def State.accumulate (s : State) (o : Operand) (f : Flags → Nat → Byte → Byte → SumResult) : State :=
  let m := s.loadOperand o
  let q := f s.sr s.stepNo s.a m.1
  (m.2.setA q.r).setSR (s.sr.withSum q)

/-- Compares a register's value with the operand (R190). -/
def State.compareWith (s : State) (reg : Byte) (o : Operand) : State :=
  let r := s.loadOperand o
  r.2.setSR (r.2.sr.compare reg r.1)

/-- A conditional branch: the displacement is added to the PC after it was consumed (R133, R237). -/
def State.branchIf (s : State) (cond : Bool) (d : Byte) : State :=
  if cond then s.setPC (s.pc + sext16 d) else s

end Sys2Proof.Machine
end

