-- ==== Sys2Proof/Machine/AddSubtract.lean ====
section
/-! DEFINITION. The meanings of ADC and SBC, binary and decimal (42_add_subtract.md). -/
namespace Sys2Proof.Machine

/-- ADC: binary when D is 0, decimal when D is 1; N, V, Z, C (R160, R161). -/
def execAdc (o : Operand) (s : State) : Result := .next (s.accumulate o adcResult)

/-- SBC: binary when D is 0, decimal when D is 1; N, V, Z, C (R160, R165). -/
def execSbc (o : Operand) (s : State) : Result := .next (s.accumulate o sbcResult)

end Sys2Proof.Machine
end

