-- ==== Sys2Proof/Machine/CompareIncDec.lean ====
section
/-! DEFINITION. The meanings of the compares, increments, decrements and BIT (44_compare_incdec_bit.md). -/
namespace Sys2Proof.Machine

/-- CMP: compares A with M; N, Z, C (R191). -/
def execCmp (o : Operand) (s : State) : Result := .next (s.compareWith s.a o)

/-- CPX: compares X with M; N, Z, C (R192). -/
def execCpx (o : Operand) (s : State) : Result := .next (s.compareWith s.x o)

/-- CPY: compares Y with M; N, Z, C (R193). -/
def execCpy (o : Operand) (s : State) : Result := .next (s.compareWith s.y o)

/-- INC: memory plus 1; N, Z (R194). -/
def execInc (m : MemMode) (s : State) : Result := .next (s.modify m (fun v => v + 1))

/-- DEC: memory minus 1; N, Z (R195). -/
def execDec (m : MemMode) (s : State) : Result := .next (s.modify m (fun v => v - 1))

/-- INX: `X <- X + 1`; N, Z (R196). -/
def execInx (s : State) : Result := .next ((s.setX (s.x + 1)).setNZ (s.x + 1))

/-- INY: `Y <- Y + 1`; N, Z (R197). -/
def execIny (s : State) : Result := .next ((s.setY (s.y + 1)).setNZ (s.y + 1))

/-- DEX: `X <- X - 1`; N, Z (R198). -/
def execDex (s : State) : Result := .next ((s.setX (s.x - 1)).setNZ (s.x - 1))

/-- DEY: `Y <- Y - 1`; N, Z (R199). -/
def execDey (s : State) : Result := .next ((s.setY (s.y - 1)).setNZ (s.y - 1))

/-- BIT: Z from `A & M`, N and V from bits 7 and 6 of M (R200). -/
def execBit (m : MemMode) (s : State) : Result :=
  let r := s.loadOperand (.mem m)
  .next (r.2.setSR (r.2.sr.bitTest s.a r.1))

end Sys2Proof.Machine
end

