-- ==== Sys2Proof/Machine/ControlTransfer.lean ====
section
/-! DEFINITION. The meanings of BRK, RTI, JSR, RTS, JMP and the eight branches (46_control_transfer.md). -/
namespace Sys2Proof.Machine

/-- BRK: trap entry; PC is past the signature byte already (R231, R305; log entry 22). -/
def execBrk (s : State) : Result := .next s.trapEntry

/-- RTI: trap return (R232, R306). -/
def execRti (s : State) : Result := .next s.trapReturn

/-- JSR: pushes the address of its own last byte, then jumps; both operand bytes were fetched before (R233; D19; log entry 15). -/
def execJsr (w : Addr) (s : State) : Result := .next ((s.push16 (s.pc - 1)).setPC w)

/-- RTS: pulls an address and adds one to it (R234). -/
def execRts (s : State) : Result :=
  let r := s.pull16
  .next (r.2.setPC (r.1 + 1))

/-- JMP, absolute and indirect (R235, R236). -/
def execJmp (j : JumpMode) (s : State) : Result :=
  let r := s.resolveJump j
  .next (r.2.setPC r.1)

/-- BPL: branches when N is 0 (R238). -/
def execBpl (d : Byte) (s : State) : Result := .next (s.branchIf (!s.sr.n) d)

/-- BMI: branches when N is 1 (R239). -/
def execBmi (d : Byte) (s : State) : Result := .next (s.branchIf s.sr.n d)

/-- BVC: branches when V is 0 (R240). -/
def execBvc (d : Byte) (s : State) : Result := .next (s.branchIf (!s.sr.v) d)

/-- BVS: branches when V is 1 (R241). -/
def execBvs (d : Byte) (s : State) : Result := .next (s.branchIf s.sr.v d)

/-- BCC: branches when C is 0 (R242). -/
def execBcc (d : Byte) (s : State) : Result := .next (s.branchIf (!s.sr.c) d)

/-- BCS: branches when C is 1 (R243). -/
def execBcs (d : Byte) (s : State) : Result := .next (s.branchIf s.sr.c d)

/-- BNE: branches when Z is 0 (R244). -/
def execBne (d : Byte) (s : State) : Result := .next (s.branchIf (!s.sr.z) d)

/-- BEQ: branches when Z is 1 (R245). -/
def execBeq (d : Byte) (s : State) : Result := .next (s.branchIf s.sr.z d)

end Sys2Proof.Machine
end

