-- ==== Sys2Proof/Machine/FlagNop.lean ====
section
/-! DEFINITION. The meanings of the flag instructions, NOP and the undefined opcodes (48_flags_nop_undefined.md). -/
namespace Sys2Proof.Machine

/-- CLC: `C <- 0` (R280). -/
def execClc (s : State) : Result := .next (s.setSR { s.sr with c := false })

/-- SEC: `C <- 1` (R281). -/
def execSec (s : State) : Result := .next (s.setSR { s.sr with c := true })

/-- CLI: `I <- 0` (R282). -/
def execCli (s : State) : Result := .next (s.setSR { s.sr with i := false })

/-- SEI: `I <- 1` (R283). -/
def execSei (s : State) : Result := .next (s.setSR { s.sr with i := true })

/-- CLD: `D <- 0` (R284). -/
def execCld (s : State) : Result := .next (s.setSR { s.sr with d := false })

/-- SED: `D <- 1` (R285). -/
def execSed (s : State) : Result := .next (s.setSR { s.sr with d := true })

/-- CLV: `V <- 0` (R286). -/
def execClv (s : State) : Result := .next (s.setSR { s.sr with v := false })

/-- NOP: nothing (R287). -/
def execNop (s : State) : Result := .next s

/-- An undefined opcode: nothing, whichever of the 105 bytes it is (R290). -/
def execUndef (_op : Byte) (s : State) : Result := .next s

end Sys2Proof.Machine
end

