-- ==== Sys2Proof/Machine/LoadStore.lean ====
section
/-! DEFINITION. The meanings of the loads, stores and register transfers (47_load_store_transfer.md). -/
namespace Sys2Proof.Machine

/-- LDA: `A <- M`; N, Z (R260). -/
def execLda (o : Operand) (s : State) : Result :=
  let r := s.loadOperand o
  .next ((r.2.setA r.1).setNZ r.1)

/-- LDX: `X <- M`; N, Z (R261). -/
def execLdx (o : Operand) (s : State) : Result :=
  let r := s.loadOperand o
  .next ((r.2.setX r.1).setNZ r.1)

/-- LDY: `Y <- M`; N, Z (R262). -/
def execLdy (o : Operand) (s : State) : Result :=
  let r := s.loadOperand o
  .next ((r.2.setY r.1).setNZ r.1)

/-- STA: stores A at the effective address; no flag (R263). -/
def execSta (m : MemMode) (s : State) : Result := .next (s.store m s.a)

/-- STX: stores X at the effective address; no flag (R264). -/
def execStx (m : MemMode) (s : State) : Result := .next (s.store m s.x)

/-- STY: stores Y at the effective address; no flag (R265). -/
def execSty (m : MemMode) (s : State) : Result := .next (s.store m s.y)

/-- TAX: `X <- A`; N, Z (R266). -/
def execTax (s : State) : Result := .next ((s.setX s.a).setNZ s.a)

/-- TAY: `Y <- A`; N, Z (R267). -/
def execTay (s : State) : Result := .next ((s.setY s.a).setNZ s.a)

/-- TXA: `A <- X`; N, Z (R268). -/
def execTxa (s : State) : Result := .next ((s.setA s.x).setNZ s.x)

/-- TYA: `A <- Y`; N, Z (R269). -/
def execTya (s : State) : Result := .next ((s.setA s.y).setNZ s.y)

/-- TSX: `X <- SP`; N, Z (R270). -/
def execTsx (s : State) : Result := .next ((s.setX s.sp).setNZ s.sp)

/-- TXS: `SP <- X`; no flag (R271). -/
def execTxs (s : State) : Result := .next (s.setSP s.x)

end Sys2Proof.Machine
end

