-- ==== Sys2Proof/Machine/Logical.lean ====
section
/-! DEFINITION. The meanings of ORA, AND and EOR (41_logical.md). -/
namespace Sys2Proof.Machine

/-- ORA: `A <- A | M`; N, Z (R150). -/
def execOra (o : Operand) (s : State) : Result := .next (s.logic o (fun a m => a ||| m))

/-- AND: `A <- A & M`; N, Z (R151). -/
def execAnd (o : Operand) (s : State) : Result := .next (s.logic o (fun a m => a &&& m))

/-- EOR: `A <- A ^ M`; N, Z (R152). -/
def execEor (o : Operand) (s : State) : Result := .next (s.logic o (fun a m => a ^^^ m))

end Sys2Proof.Machine
end

