-- ==== Sys2Proof/Machine/ShiftRotate.lean ====
section
/-! DEFINITION. The meanings of ASL, LSR, ROL and ROR (43_shift_rotate.md). -/
namespace Sys2Proof.Machine

/-- ASL: shift left, bit 7 into C; N, Z, C (R181). -/
def execAsl (t : Target) (s : State) : Result := .next (s.shift t aslResult)

/-- LSR: shift right, bit 0 into C; N, Z, C (R182). -/
def execLsr (t : Target) (s : State) : Result := .next (s.shift t lsrResult)

/-- ROL: rotate left through C; N, Z, C (R183). -/
def execRol (t : Target) (s : State) : Result := .next (s.shift t rolResult)

/-- ROR: rotate right through C; N, Z, C (R184). -/
def execRor (t : Target) (s : State) : Result := .next (s.shift t rorResult)

end Sys2Proof.Machine
end

