-- ==== Sys2Proof/Machine/Stack.lean ====
section
/-! DEFINITION. The meanings of PHA, PLA, PHP and PLP (45_stack.md). -/
namespace Sys2Proof.Machine

/-- PHA: pushes A (R214). -/
def execPha (s : State) : Result := .next (s.push s.a)

/-- PLA: pulls A; N, Z (R215). -/
def execPla (s : State) : Result :=
  let r := s.pull
  .next ((r.2.setA r.1).setNZ r.1)

/-- PHP: pushes the status with bits 4 and 5 as 1; the live flags stay (R216). -/
def execPhp (s : State) : Result := .next (s.push (s.sr.toByte ||| 0x30))

/-- PLP: pulls the status; B becomes 0 (R217). -/
def execPlp (s : State) : Result :=
  let r := s.pull
  .next (r.2.setSR (Flags.installPlp r.1))

end Sys2Proof.Machine
end

