-- ==== Sys2Proof/Machine/Step.lean ====
section
/-! DEFINITION. The step: fetch, decode and resolve the operand bytes, execute (R333). And the placing of one instruction
where the next step fetches. -/
namespace Sys2Proof.Machine

/-- One step executes exactly one instruction (R333). -/
def step (s : State) : Host.Outcome State Fault Refusal :=
  let f := s.fetchInstr
  exec f.1 f.2

/-- `s` with the instruction of a table word at PC. The windows that cover those bytes go, since a fetch from a peripheral would
not read what is placed (log entry 21). -/
def State.withFetchWord (s : State) (nbits w : Nat) : State :=
  let t := s.pokeBytes s.pc (tableWordBytes nbits w)
  { t with devices := t.devices.filter (fun d => !(d.covers s.pc || d.covers (s.pc + 1) || d.covers (s.pc + 2))) }

end Sys2Proof.Machine
end

