-- ==== Sys2Proof/Machine/HostPort.lean ====
section
/-! DEFINITION. What the host may do between steps: the state port (R343) and its access to memory (R342). No step calls these. -/
namespace Sys2Proof.Machine

/-- The flags by logical name (R343). -/
inductive FlagName where
  | carry | zero | interruptDisable | decimal | break | overflow | negative
  deriving DecidableEq, Repr

/-- The registers of the state port that are 8 bits wide. -/
inductive RegName where
  | a | x | y | sp
  deriving DecidableEq, Repr

/-- The value of a flag. -/
def Flags.get (p : Flags) : FlagName → Bool
  | .carry => p.c
  | .zero => p.z
  | .interruptDisable => p.i
  | .decimal => p.d
  | .break => p.b
  | .overflow => p.v
  | .negative => p.n

/-- The flags with one set. -/
def Flags.put (p : Flags) (f : FlagName) (v : Bool) : Flags :=
  match f with
  | .carry => { p with c := v }
  | .zero => { p with z := v }
  | .interruptDisable => { p with i := v }
  | .decimal => { p with d := v }
  | .break => { p with b := v }
  | .overflow => { p with v := v }
  | .negative => { p with n := v }

/-- The host reads an 8-bit register. -/
def State.reg (s : State) : RegName → Byte
  | .a => s.a
  | .x => s.x
  | .y => s.y
  | .sp => s.sp

/-- The host writes an 8-bit register. -/
def State.hostSetReg (s : State) (r : RegName) (v : Byte) : State :=
  match r with
  | .a => s.setA v
  | .x => s.setX v
  | .y => s.setY v
  | .sp => s.setSP v

/-- The host writes PC. -/
def State.hostSetPC (s : State) (v : Addr) : State := s.setPC v

/-- The host reads a flag by name. -/
def State.hostFlag (s : State) (f : FlagName) : Bool := s.sr.get f

/-- The host writes a flag by name. -/
def State.hostSetFlag (s : State) (f : FlagName) (v : Bool) : State := s.setSR (s.sr.put f v)

/-- The host reads the status as a byte, bit 5 as 1 (R42, R343). -/
def State.hostStatus (s : State) : Byte := s.sr.toByte

/-- The host writes the status as a byte, bit 5 discarded (R42, R343). -/
def State.hostSetStatus (s : State) (v : Byte) : State := s.setSR (Flags.ofByte v)

/-- The host reads a byte of memory between steps (R342). DESIGN CHOICE: outside `PlainRam`, where the spec leaves the value to the
host (R66, U7), it answers a free value of the number of steps begun and the address; safe, but for a claim that two such reads
with no step between them agree (log entry 30). -/
def State.hostRead (s : State) (a : Addr) : Byte :=
  if s.plain a then s.peek a else Config.hostDeviceByte s.stepNo a

/-- The host writes a byte of memory between steps; a later step sees it (R342). DESIGN CHOICE, safe: outside `PlainRam` nothing is
stored, as by a core write there, since every later read there is free (R66; log entry 30). -/
def State.hostWrite (s : State) (a : Addr) (v : Byte) : State := if s.plain a then s.poke a v else s

end Sys2Proof.Machine
end

