-- ==== Sys2Proof/Safety.lean ====
section
/-! DEFINITION. The terms claims are made in: what a transition leaves unchanged, the invariant of the machine's memory, and a
run to an end the host gives (R335). -/
namespace Sys2Proof.Machine

/-! ### Frames -/

/-- The 8-bit registers are unchanged, but for those listed. -/
def RegsKeptBut (rs : List RegName) (s t : State) : Prop := ∀ r, r ∉ rs → t.reg r = s.reg r

/-- The flags are unchanged, but for those listed. -/
def FlagsKeptBut (fs : List FlagName) (s t : State) : Prop := ∀ f, f ∉ fs → t.sr.get f = s.sr.get f

/-- Every byte of memory reads as before, but for those at the addresses listed. -/
def MemKeptBut (as : List Addr) (s t : State) : Prop := ∀ a, a ∉ as → t.peek a = s.peek a

/-- The transition changes at most the listed registers, flags and bytes of memory, and PC and the port's record, of which the
frame says nothing. -/
def Changes (rs : List RegName) (fs : List FlagName) (as : List Addr) (s t : State) : Prop :=
  RegsKeptBut rs s t ∧ FlagsKeptBut fs s t ∧ MemKeptBut as s t ∧ t.devices = s.devices ∧ t.stepNo = s.stepNo

/-- A store of `v` at `a`: in `PlainRam` the byte becomes `v`, outside it no byte of memory changes (R66). -/
def Stored (a : Addr) (v : Byte) (s t : State) : Prop :=
  (s.plain a = true → t.peek a = v) ∧ (s.plain a = false → t.peek a = s.peek a)

/-! ### The invariant -/

/-- Memory is in its canonical form. -/
abbrev Inv (s : State) : Prop := s.mem.wf = true

/-! ### Safe steps and runs -/

/-- The step answers a next state: neither a fault nor a refusal. -/
def SafeStep (s : State) : Prop := ∃ t, step s = .next t

/-- A run that ends when PC first equals the stop address given at launch, or when the fuel is spent (R335); the count is of the
steps taken. None where a step stops or the fuel is spent first. -/
def runUntil (stop : Addr) : Nat → State → Option (Nat × State)
  | 0, s => if s.pc = stop then some (0, s) else none
  | fuel + 1, s =>
    if s.pc = stop then some (0, s)
    else match step s with
      | .next t => (runUntil stop fuel t).map (fun r => (r.1 + 1, r.2))
      | .fault _ => none
      | .refused _ => none

end Sys2Proof.Machine
end

