-- ==== Sys2Proof/Certificates/Slice0/Obligations.lean ====
section
/-! DEFINITION. The statements for the provers, from the numbered rules of spec/, and the words they are written in. In a
statement about `exec`, `s` is the state after the fetch: PC is at the byte after the instruction (R22, R38; log entry 22). Where a
statement names the fields `port` and `stepNo`, they are the model's own (log entries 6 and 3); that the model's memory keeps its
byte at an address outside `PlainRam` is the model's choice (log entry 5). -/

namespace Sys2Proof.Claims
open Sys2Proof.Machine

/-! ### Words the statements are written in -/

/-- N and Z come from the byte (R19). -/
def NZFrom (v : Byte) (t : State) : Prop := t.sr.n = v.getLsbD 7 ∧ (t.sr.z = true ↔ v = 0)

/-- The bytes are the instruction: they encode it, and the decoder reads it off the front of any string they begin. -/
def Encodes (i : Instr) (bs : List Byte) : Prop := encode i = some bs ∧ ∀ rest, decode (bs ++ rest) = .ok (i, rest)

/-- An opcode followed by one operand byte. -/
def EncodesByte (f : Byte → Instr) (op : Byte) : Prop := ∀ b, Encodes (f b) [op, b]

/-- An opcode followed by a 16-bit operand, low byte first. -/
def EncodesWord (f : Addr → Instr) (op : Byte) : Prop := ∀ lo hi, Encodes (f (joinBytes hi lo)) [op, lo, hi]

/-- The eight modes of the accumulator instructions, in the order of their 'Encoding' lines. -/
def AccumulatorEncoding (f : Operand → Instr) (imm zp zpx abs abx aby izx izy : Byte) : Prop :=
  EncodesByte (fun b => f (.imm b)) imm ∧ EncodesByte (fun b => f (.mem (.zp b))) zp ∧
  EncodesByte (fun b => f (.mem (.zpx b))) zpx ∧ EncodesWord (fun w => f (.mem (.abs w))) abs ∧
  EncodesWord (fun w => f (.mem (.abx w))) abx ∧ EncodesWord (fun w => f (.mem (.aby w))) aby ∧
  EncodesByte (fun b => f (.mem (.izx b))) izx ∧ EncodesByte (fun b => f (.mem (.izy b))) izy

/-- The five modes of the shifts, in the order of their 'Encoding' lines. -/
def ShiftEncoding (f : Target → Instr) (acc zp zpx abs abx : Byte) : Prop :=
  Encodes (f .acc) [acc] ∧ EncodesByte (fun b => f (.mem (.zp b))) zp ∧ EncodesByte (fun b => f (.mem (.zpx b))) zpx ∧
  EncodesWord (fun w => f (.mem (.abs w))) abs ∧ EncodesWord (fun w => f (.mem (.abx w))) abx

/-- ORA, AND, EOR: A becomes the bitwise function of A and M. -/
def LogicRule (f : Operand → Instr) (g : Byte → Byte → Byte) : Prop :=
  ∀ (o : Operand) (s : State), ∃ t, exec (f o) s = .next t ∧
    t.a = g s.a (s.loadOperand o).1 ∧ NZFrom t.a t ∧ t.pc = s.pc ∧ t.port = (s.loadOperand o).2.port ∧
    Changes [.a] [.negative, .zero] [] s t

/-- Both nibbles of the byte are decimal digits. -/
def Packed (b : Byte) : Prop := b.toNat / 16 ≤ 9 ∧ b.toNat % 16 ≤ 9

/-- `dec(b)` of R163. -/
def dec (b : Byte) : Nat := 10 * (b.toNat / 16) + b.toNat % 16

/-- `bcd(k)` of R163. -/
def bcd (k : Nat) : Byte := BitVec.ofNat 8 (k / 10 * 16 + k % 10)

/-- A shift or rotate: `r` gives the result of the operand and the previous carry, `out` is the bit shifted out. -/
def ShiftRule (f : Target → Instr) (r : Nat → Nat → Nat) (out : Nat) : Prop :=
  ∀ s : State,
    (∃ t, exec (f .acc) s = .next t ∧ t.a.toNat = r s.a.toNat s.sr.c.toNat ∧ t.sr.c = s.a.getLsbD out ∧
      NZFrom t.a t ∧ t.pc = s.pc ∧ t.port = s.port ∧ Changes [.a] [.negative, .zero, .carry] [] s t) ∧
    ∀ m : MemMode,
      let e := s.resolve m
      let v := (e.2.memRead e.1).1
      ∃ t w, exec (f (.mem m)) s = .next t ∧ w.toNat = r v.toNat s.sr.c.toNat ∧ Stored e.1 w s t ∧
        t.sr.c = v.getLsbD out ∧ NZFrom w t ∧ t.pc = s.pc ∧ t.port = e.2.port ++ [.read e.1 v, .write e.1 w] ∧
        Changes [] [.negative, .zero, .carry] [e.1] s t

/-- CMP, CPX, CPY: `Compare(reg, m)` (R190). -/
def CompareRule (f : Operand → Instr) (r : RegName) : Prop :=
  ∀ (o : Operand) (s : State),
    let m := (s.loadOperand o).1
    ∃ t, exec (f o) s = .next t ∧ t.sr.c = decide (m.toNat ≤ (s.reg r).toNat) ∧ (t.sr.z = true ↔ s.reg r = m) ∧
      t.sr.n = (s.reg r - m).getLsbD 7 ∧ t.pc = s.pc ∧ t.port = (s.loadOperand o).2.port ∧
      Changes [] [.negative, .zero, .carry] [] s t

/-- INC and DEC: memory plus `k` modulo 256. -/
def IncDecMemoryRule (f : MemMode → Instr) (k : Nat) : Prop :=
  ∀ (m : MemMode) (s : State),
    let e := s.resolve m
    let v := (e.2.memRead e.1).1
    ∃ t w, exec (f m) s = .next t ∧ w.toNat = (v.toNat + k) % 256 ∧ Stored e.1 w s t ∧ NZFrom w t ∧ t.pc = s.pc ∧
      t.port = e.2.port ++ [.read e.1 v, .write e.1 w] ∧ Changes [] [.negative, .zero] [e.1] s t

/-- INX, INY, DEX, DEY: a register plus `k` modulo 256. -/
def IncDecRegisterRule (i : Instr) (r : RegName) (k : Nat) : Prop :=
  ∀ s : State, ∃ t, exec i s = .next t ∧ (t.reg r).toNat = ((s.reg r).toNat + k) % 256 ∧ NZFrom (t.reg r) t ∧
    t.pc = s.pc ∧ t.port = s.port ∧ Changes [r] [.negative, .zero] [] s t

/-- A push of `v`: its store, the move of SP and its one access. -/
def Pushed (v : Byte) (s t : State) : Prop :=
  Stored (stackAddr s.sp) v s t ∧ t.sp = s.sp - 1 ∧ t.port = s.port ++ [.write (stackAddr s.sp) v]

/-- A pull of `v`: the byte read, the move of SP and its one access. -/
def Pulled (v : Byte) (s t : State) : Prop :=
  (s.plain (stackAddr (s.sp + 1)) = true → v = s.peek (stackAddr (s.sp + 1))) ∧ t.sp = s.sp + 1 ∧
  t.port = s.port ++ [.read (stackAddr (s.sp + 1)) v]

/-- Every address of the stack page is plain memory. -/
def PlainStack (s : State) : Prop := ∀ p : Byte, s.plain (stackAddr p) = true

/-- Pushes the bytes in order. -/
def pushAll (s : State) : List Byte → State
  | [] => s
  | b :: bs => pushAll (s.push b) bs

/-- Pulls `n` bytes, the first pulled first. -/
def pullMany (s : State) : Nat → List Byte × State
  | 0 => ([], s)
  | n + 1 => (s.pull.1 :: (pullMany s.pull.2 n).1, (pullMany s.pull.2 n).2)

/-- A conditional branch (R237). -/
def BranchRule (f : Byte → Instr) (op : Byte) (cond : State → Bool) : Prop :=
  EncodesByte f op ∧ ∀ (d : Byte) (s : State), ∃ t, exec (f d) s = .next t ∧
    t.pc = (if cond s = true then s.pc + sext16 d else s.pc) ∧ t.port = s.port ∧ Changes [] [] [] s t

/-- A load of register `r`. -/
def LoadRule (f : Operand → Instr) (r : RegName) : Prop :=
  ∀ (o : Operand) (s : State), ∃ t, exec (f o) s = .next t ∧ t.reg r = (s.loadOperand o).1 ∧ NZFrom (t.reg r) t ∧
    t.pc = s.pc ∧ t.port = (s.loadOperand o).2.port ∧ Changes [r] [.negative, .zero] [] s t

/-- A store of register `r`: the effective address is written and not read. -/
def StoreRule (f : MemMode → Instr) (r : RegName) : Prop :=
  ∀ (m : MemMode) (s : State),
    let e := s.resolve m
    ∃ t, exec (f m) s = .next t ∧ Stored e.1 (s.reg r) s t ∧ t.pc = s.pc ∧
      t.port = e.2.port ++ [.write e.1 (s.reg r)] ∧ Changes [] [] [e.1] s t

/-- A transfer from `src` to `dst` that writes N and Z. -/
def TransferRule (i : Instr) (op : Byte) (src dst : RegName) : Prop :=
  Encodes i [op] ∧ ∀ s : State, ∃ t, exec i s = .next t ∧ t.reg dst = s.reg src ∧ NZFrom (s.reg src) t ∧ t.pc = s.pc ∧
    t.port = s.port ∧ Changes [dst] [.negative, .zero] [] s t

/-- A flag instruction: `f` becomes `v`. -/
def FlagRule (i : Instr) (op : Byte) (f : FlagName) (v : Bool) : Prop :=
  Encodes i [op] ∧ ∀ s : State, ∃ t, exec i s = .next t ∧ t.sr.get f = v ∧ t.pc = s.pc ∧ t.port = s.port ∧
    Changes [] [f] [] s t

/-- Two consecutive reads, at `p` and then `q`, and the little-endian word they make. -/
def PairRead (p q : Addr) (w : Addr) (s t : State) : Prop :=
  ∃ lo hi : Byte, t = { s with port := s.port ++ [.read p lo, .read q hi] } ∧ w.toNat = lo.toNat + 256 * hi.toNat ∧
    (s.plain p = true → lo = s.peek p) ∧ (s.plain q = true → hi = s.peek q)

/-- The instructions that write A (R32). -/
def writesA : Instr → Bool
  | .ora _ | .and _ | .eor _ | .adc _ | .sbc _ | .lda _ | .txa | .tya | .pla => true
  | .asl .acc | .lsr .acc | .rol .acc | .ror .acc => true
  | _ => false

/-- The instructions that write X (R33). -/
def writesX : Instr → Bool
  | .ldx _ | .inx | .dex | .tax | .tsx => true
  | _ => false

/-- The instructions that write Y (R34). -/
def writesY : Instr → Bool
  | .ldy _ | .iny | .dey | .tay => true
  | _ => false

/-- The instructions that write SP (R37). -/
def writesSP : Instr → Bool
  | .pha | .php | .pla | .plp | .jsr _ | .rts | .brk | .rti | .txs => true
  | _ => false

/-- The instructions that transfer control (R40). -/
def writesPC : Instr → Bool
  | .brk | .rti | .jsr _ | .rts | .jmp _ => true
  | .bpl _ | .bmi _ | .bvc _ | .bvs _ | .bcc _ | .bcs _ | .bne _ | .beq _ => true
  | _ => false

/-- The instructions that write C (R44). -/
def writesC : Instr → Bool
  | .adc _ | .sbc _ | .asl _ | .lsr _ | .rol _ | .ror _ | .cmp _ | .cpx _ | .cpy _ | .clc | .sec | .plp | .rti => true
  | _ => false

/-- The instructions that write Z and N (R45). -/
def writesNZ : Instr → Bool
  | .ora _ | .and _ | .eor _ | .adc _ | .sbc _ | .asl _ | .lsr _ | .rol _ | .ror _ | .cmp _ | .cpx _ | .cpy _ => true
  | .inc _ | .dec _ | .inx | .iny | .dex | .dey | .bit _ | .lda _ | .ldx _ | .ldy _ => true
  | .tax | .tay | .txa | .tya | .tsx | .pla | .plp | .rti => true
  | _ => false

/-- The instructions that write V (R46). -/
def writesV : Instr → Bool
  | .adc _ | .sbc _ | .bit _ | .clv | .plp | .rti => true
  | _ => false

/-- The instructions that write I (R47). -/
def writesI : Instr → Bool
  | .brk | .cli | .sei | .plp | .rti => true
  | _ => false

/-- The instructions that write D (R48). -/
def writesD : Instr → Bool
  | .cld | .sed | .plp | .rti => true
  | _ => false

/-- The instructions that write the live B (R49). -/
def writesB : Instr → Bool
  | .plp | .rti => true
  | _ => false

/-- The instructions that write memory (R121, R210). -/
def writesMemory : Instr → Bool
  | .sta _ | .stx _ | .sty _ | .inc _ | .dec _ | .pha | .php | .jsr _ | .brk => true
  | .asl (.mem _) | .lsr (.mem _) | .rol (.mem _) | .ror (.mem _) => true
  | _ => false

/-- The instructions whose only accesses are on the stack, and BRK, which also reads its vector (R213). -/
def usesStack : Instr → Bool
  | .pha | .pla | .php | .plp | .jsr _ | .rts | .rti | .brk => true
  | _ => false

/-- The address of an access. -/
def accessAddr : Access → Addr
  | .read a _ => a
  | .write a _ => a

/-- How many bytes the fetch of an instruction reads: all of them, but for BRK's signature byte. -/
def fetchedBytes (i : Instr) : Nat := if i = .brk then 1 else instrLength i

end Sys2Proof.Claims

open Sys2Proof Sys2Proof.Machine Sys2Proof.Claims

/-! ### Reset and the host's port -/

/-- R52, R330: after reset each register and flag holds what `InitState` supplies, or zero; reset makes no memory access and
leaves memory as the host has it. -/
def Obligations.ResetHoldsInitState : Prop :=
  (∀ (p : InitState) (mem : Memory) (dev : List Window),
    let s := State.create p mem dev
    s.a = p.a ∧ s.x = p.x ∧ s.y = p.y ∧ s.sp = p.sp ∧ s.pc = p.pc ∧
    s.sr.c = p.c ∧ s.sr.z = p.z ∧ s.sr.i = p.i ∧ s.sr.d = p.d ∧ s.sr.b = p.b ∧ s.sr.v = p.v ∧ s.sr.n = p.n ∧
    s.mem = mem ∧ s.devices = dev ∧ s.port = []) ∧
  (State.reset = State.create {} [] [] ∧ State.reset.a = 0 ∧ State.reset.x = 0 ∧ State.reset.y = 0 ∧ State.reset.sp = 0 ∧
    State.reset.pc = 0 ∧ (∀ f, State.reset.sr.get f = false) ∧ State.reset.hostStatus = 0x20) ∧
  (State.create { a := 0x12, sp := 0xFF, pc := 0xC000, d := true } [] []).x = 0 ∧
  (State.create { a := 0x12, sp := 0xFF, pc := 0xC000, d := true } [] []).hostStatus = 0x28

/-- R41: the byte form of the status is N V 1 B D I Z C. -/
def Obligations.StatusByteLayout : Prop :=
  ∀ p : Flags, p.toByte.getLsbD 7 = p.n ∧ p.toByte.getLsbD 6 = p.v ∧ p.toByte.getLsbD 5 = true ∧ p.toByte.getLsbD 4 = p.b ∧
    p.toByte.getLsbD 3 = p.d ∧ p.toByte.getLsbD 2 = p.i ∧ p.toByte.getLsbD 1 = p.z ∧ p.toByte.getLsbD 0 = p.c

/-- R43: what PLP and RTI install from a status byte; they differ in B only. -/
def Obligations.StatusInstalls : Prop :=
  ∀ v : Byte, Flags.installRti v = { Flags.installPlp v with b := v.getLsbD 4 } ∧
    (Flags.installPlp v).c = v.getLsbD 0 ∧ (Flags.installPlp v).z = v.getLsbD 1 ∧ (Flags.installPlp v).i = v.getLsbD 2 ∧
    (Flags.installPlp v).d = v.getLsbD 3 ∧ (Flags.installPlp v).b = false ∧ (Flags.installPlp v).v = v.getLsbD 6 ∧
    (Flags.installPlp v).n = v.getLsbD 7

/-- R42: bit 5 is not stored. It reads as 1 in every byte form, and is discarded from every byte installed. -/
def Obligations.StatusBitFiveIsNotStored : Prop :=
  ∀ (s : State) (v w : Byte), v ||| 0x20 = w ||| 0x20 →
    s.hostStatus.getLsbD 5 = true ∧ Flags.installPlp v = Flags.installPlp w ∧ Flags.installRti v = Flags.installRti w ∧
    s.hostSetStatus v = s.hostSetStatus w ∧ (s.hostSetStatus v).hostStatus = v ||| 0x20

/-- R343: the state port. It reads the machine's registers and flags, a register or flag reads as the host wrote it, a write
changes nothing else, and the status byte's bits set the flags. -/
def Obligations.StatePortReadsWhatWasWritten : Prop :=
  ∀ s : State,
    (s.reg .a = s.a ∧ s.reg .x = s.x ∧ s.reg .y = s.y ∧ s.reg .sp = s.sp) ∧
    (s.hostFlag .carry = s.sr.c ∧ s.hostFlag .zero = s.sr.z ∧ s.hostFlag .interruptDisable = s.sr.i ∧
      s.hostFlag .decimal = s.sr.d ∧ s.hostFlag .break = s.sr.b ∧ s.hostFlag .overflow = s.sr.v ∧
      s.hostFlag .negative = s.sr.n) ∧
    (∀ r v, (s.hostSetReg r v).reg r = v ∧ (s.hostSetReg r v).pc = s.pc ∧ Changes [r] [] [] s (s.hostSetReg r v)) ∧
    (∀ v, (s.hostSetPC v).pc = v ∧ Changes [] [] [] s (s.hostSetPC v)) ∧
    (∀ f v, (s.hostSetFlag f v).hostFlag f = v ∧ (s.hostSetFlag f v).pc = s.pc ∧ Changes [] [f] [] s (s.hostSetFlag f v)) ∧
    s.hostStatus = s.sr.toByte ∧
    (∀ v : Byte, (s.hostSetStatus v).sr.c = v.getLsbD 0 ∧ (s.hostSetStatus v).sr.z = v.getLsbD 1 ∧
      (s.hostSetStatus v).sr.i = v.getLsbD 2 ∧ (s.hostSetStatus v).sr.d = v.getLsbD 3 ∧
      (s.hostSetStatus v).sr.b = v.getLsbD 4 ∧ (s.hostSetStatus v).sr.v = v.getLsbD 6 ∧
      (s.hostSetStatus v).sr.n = v.getLsbD 7 ∧ (s.hostSetStatus v).pc = s.pc ∧ RegsKeptBut [] s (s.hostSetStatus v) ∧
      MemKeptBut [] s (s.hostSetStatus v))

/-! ### Memory -/

/-- R66: in `PlainRam` a read returns the byte last written, by the core or by the host between steps, or else the initial one;
outside it a read is a draw and a write leaves `PlainRam` alone; by default every address is plain. That a write outside it stores
nothing in the model's memory, and the port's record, are the model's choice (log entries 5 and 6). -/
def Obligations.PlainRamReadsLastWrite : Prop :=
  (∀ (s : State) (a : Addr) (v : Byte),
    (s.plain a = true → (s.memRead a).1 = s.peek a ∧ ((s.memWrite a v).memRead a).1 = v ∧
      ((s.hostWrite a v).memRead a).1 = v) ∧
    (s.plain a = false → (s.memRead a).1 = Config.deviceByte s.stepNo s.port.length ∧
      MemKeptBut [] s (s.memWrite a v)) ∧
    (∀ b, b ≠ a → (s.memWrite a v).peek b = s.peek b ∧ (s.hostWrite a v).peek b = s.peek b) ∧
    (s.memRead a).2 = { s with port := s.port ++ [.read a (s.memRead a).1] } ∧
    (s.memWrite a v).port = s.port ++ [.write a v] ∧ (s.memWrite a v).pc = s.pc ∧ Changes [] [] [a] s (s.memWrite a v)) ∧
  ∀ (p : InitState) (mem : Memory) (dev : List Window) (a : Addr), (State.create p mem []).plain a = true ∧
    ((State.create p mem dev).plain a = true → ((State.create p mem dev).memRead a).1 = mem.get a.toNat)

/-- The memory of reset is in its canonical form. The form is the model's choice (log entry 2). -/
def Obligations.ResetMemoryIsCanonical : Prop := Inv State.reset

/-- Every step keeps memory in its canonical form, from every state that has it. The form is the model's choice (log entry 2). -/
def Obligations.StepKeepsMemoryCanonical : Prop := ∀ s t : State, Inv s → step s = .next t → Inv t

/-- The model's choice: no step changes a byte of the model's memory outside `PlainRam` (log entry 5; R66 leaves the effect of a
write there to the host), and each step has its own number (log entry 3). That no step changes which addresses are plain is because
`PlainRam` is a parameter of the model (R66). -/
def Obligations.StepStoresOnlyInPlainRam : Prop :=
  ∀ s t : State, step s = .next t →
    t.devices = s.devices ∧ t.stepNo = s.stepNo + 1 ∧ ∀ a, s.plain a = false → t.peek a = s.peek a

/-! ### Encoding -/

/-- R17: the two widenings of a byte to 16 bits. -/
def Obligations.ByteWidenings : Prop :=
  ∀ v : Byte, (zext16 v).toNat = v.toNat ∧
    sext16 v = (if v.toNat < 0x80 then zext16 v else zext16 v + 0xFF00) ∧
    (sext16 v).toInt = (v.toNat : Int) - 256 * (v.getLsbD 7).toNat

/-- Decoding the encoding of any well-formed instruction gives it back, at every operand value, and leaves what follows it. -/
def Obligations.DecodeOfEncode : Prop :=
  ∀ i : Instr, WellFormed i → ∃ bs, encode i = some bs ∧ bs.length = instrLength i ∧
    ∀ rest, decode (bs ++ rest) = .ok (i, rest)

/-- What the decoder reads is well formed and encodes to the very bytes read, but for BRK's ignored signature byte. -/
def Obligations.EncodeOfDecode : Prop :=
  ∀ (bs rest : List Byte) (i : Instr), decode bs = .ok (i, rest) → WellFormed i ∧
    ∃ front, bs = front ++ rest ∧ front.length = instrLength i ∧
      (i = .brk → ∃ sig, front = [0x00, sig]) ∧ (i ≠ .brk → encode i = some front)

/-- Words written out from the spec's encodings, one of each family, decode to the instruction they stand for. -/
def Obligations.OpcodeWordsDecode : Prop :=
  decode [0x1D, 0x34, 0x12] = .ok (.ora (.mem (.abx 0x1234)), []) ∧
  decode [0x69, 0x03] = .ok (.adc (.imm 0x03), []) ∧
  decode [0x7E, 0x00, 0x10] = .ok (.ror (.mem (.abx 0x1000)), []) ∧
  decode [0xC5, 0x10] = .ok (.cmp (.mem (.zp 0x10)), []) ∧
  decode [0x68] = .ok (.pla, []) ∧
  decode [0x6C, 0xFF, 0x30] = .ok (.jmp (.ind 0x30FF), []) ∧
  decode [0x00, 0xEE] = .ok (.brk, []) ∧
  decode [0xB6, 0xFF] = .ok (.ldx (.mem (.zpy 0xFF)), []) ∧
  decode [0x91, 0x10] = .ok (.sta (.izy 0x10), []) ∧
  decode [0x78] = .ok (.sei, []) ∧
  decode [0x02, 0xA9] = .ok (.undef 0x02, [0xA9])

/-- R97: the 105 bytes listed are the undefined opcodes, no other byte is, and each is a one-byte no-operation. -/
def Obligations.UndefinedOpcodesDecode : Prop :=
  undefinedOpcodes.length = 105 ∧ undefinedOpcodes.Nodup ∧ (∀ (op : Byte) (s : State), exec (.undef op) s = .next s) ∧
  ∀ (op : Byte) (rest : List Byte),
    (op ∈ undefinedOpcodes → decode (op :: rest) = .ok (.undef op, rest)) ∧
    (op ∉ undefinedOpcodes → ∀ b rest', decode (op :: rest) ≠ .ok (.undef b, rest'))

/-! ### The step -/

/-- R334: a step always completes with a new state. -/
def Obligations.StepAlwaysCompletes : Prop := ∀ s : State, SafeStep s

/-- When the bytes at PC are plain memory and decode to an instruction, the step is `exec` of it on the state in which PC is past
the instruction, the step has its number and the port's record is the fetch: one read per byte, BRK's signature byte unread. -/
def Obligations.StepRunsDecodedInstruction : Prop :=
  ∀ (s : State) (i : Instr) (rest : List Byte),
    decode [s.peek s.pc, s.peek (s.pc + 1), s.peek (s.pc + 2)] = .ok (i, rest) →
    (∀ k < fetchedBytes i, s.plain (s.pc + BitVec.ofNat 16 k) = true) →
    step s = exec i { s with
      pc := s.pc + BitVec.ofNat 16 (instrLength i)
      stepNo := s.stepNo + 1
      port := (List.range (fetchedBytes i)).map
        (fun k => Access.read (s.pc + BitVec.ofNat 16 k) (s.peek (s.pc + BitVec.ofNat 16 k))) }

/-- R69: a step makes one to six accesses, the first of them the read of the opcode at PC. -/
def Obligations.StepAccessesAreBounded : Prop :=
  ∀ s t : State, step s = .next t → t.port.length ≤ 6 ∧ ∃ v later, t.port = .read s.pc v :: later ∧
    (s.plain s.pc = true → v = s.peek s.pc)

/-- R77: an opcode byte stored by one instruction is the byte the next step fetches. -/
def Obligations.FetchSeesEarlierStore : Prop :=
  ∀ (s : State) (m : MemMode), (s.resolve m).1 = s.pc → s.plain s.pc = true →
    ∃ t u, exec (.sta m) s = .next t ∧ step t = .next u ∧ u.port.head? = some (.read s.pc s.a)

/-- The model's choice of the end of a run, a stop address within a bound on the steps (log entry 27; R335 asks for a condition given
at launch and names a stop address only as an example): if a run is answered, its PC is the stop address, the count is within the
bound, and that many steps lead to its state. That it is the first such state, and that a reached stop address is answered, is
`RunEndsAtFirstReach`. -/
def Obligations.RunEndsAtStopAddress : Prop :=
  ∀ (stop : Addr) (fuel k : Nat) (s t : State), runUntil stop fuel s = some (k, t) →
    t.pc = stop ∧ k ≤ fuel ∧ core.run k s = .next t

/-! ### Addressing modes -/

/-- R125 to R131: the effective address of each memory mode, its pointer reads, and that nothing but the port's record changes. -/
def Obligations.EffectiveAddresses : Prop :=
  ∀ (s : State) (b : Byte) (w : Addr),
    ((s.resolve (.zp b)).1.toNat = b.toNat ∧ (s.resolve (.zp b)).2 = s) ∧
    ((s.resolve (.zpx b)).1.toNat = (b.toNat + s.x.toNat) % 256 ∧ (s.resolve (.zpx b)).2 = s) ∧
    ((s.resolve (.zpy b)).1.toNat = (b.toNat + s.y.toNat) % 256 ∧ (s.resolve (.zpy b)).2 = s) ∧
    ((s.resolve (.abs w)).1 = w ∧ (s.resolve (.abs w)).2 = s) ∧
    ((s.resolve (.abx w)).1.toNat = (w.toNat + s.x.toNat) % 65536 ∧ (s.resolve (.abx w)).2 = s) ∧
    ((s.resolve (.aby w)).1.toNat = (w.toNat + s.y.toNat) % 65536 ∧ (s.resolve (.aby w)).2 = s) ∧
    (∃ p q : Addr, p.toNat = (b.toNat + s.x.toNat) % 256 ∧ q.toNat = (b.toNat + s.x.toNat + 1) % 256 ∧
      PairRead p q (s.resolve (.izx b)).1 s (s.resolve (.izx b)).2) ∧
    (∃ p q ptr : Addr, p.toNat = b.toNat ∧ q.toNat = (b.toNat + 1) % 256 ∧
      (s.resolve (.izy b)).1.toNat = (ptr.toNat + s.y.toNat) % 65536 ∧ PairRead p q ptr s (s.resolve (.izy b)).2)

/-- R121, R124: the byte operand is the immediate byte, with no read, or the byte of one read at the effective address. -/
def Obligations.OperandIsReadOnce : Prop :=
  ∀ s : State, (∀ b, s.loadOperand (.imm b) = (b, s)) ∧
    ∀ m, let e := s.resolve m
      (s.plain e.1 = true → (s.loadOperand (.mem m)).1 = s.peek e.1) ∧
      (s.loadOperand (.mem m)).2 = { s with port := e.2.port ++ [.read e.1 (s.loadOperand (.mem m)).1] }

/-! ### Logical operations -/

/-- R150, R151, R152: ORA, AND and EOR. -/
def Obligations.LogicalOperations : Prop :=
  AccumulatorEncoding .ora 0x09 0x05 0x15 0x0D 0x1D 0x19 0x01 0x11 ∧ LogicRule .ora (fun a m => a ||| m) ∧
  AccumulatorEncoding .and 0x29 0x25 0x35 0x2D 0x3D 0x39 0x21 0x31 ∧ LogicRule .and (fun a m => a &&& m) ∧
  AccumulatorEncoding .eor 0x49 0x45 0x55 0x4D 0x5D 0x59 0x41 0x51 ∧ LogicRule .eor (fun a m => a ^^^ m)

/-! ### Addition and subtraction -/

/-- R161 to R164: ADC in binary mode, in decimal mode on packed BCD operands, and in decimal mode on others, where result and
carry are the free function of the operands. The model's choice: the unspecified V of decimal mode is the free value
`Config.decimalV` of the step's number (R164, D6; log entry 3), and the spec's parameter for other operands is the free function
`Config.bcdAddNonBcd` (R163(b), D7; log entry 4). -/
def Obligations.AdcAddsWithCarry : Prop :=
  AccumulatorEncoding .adc 0x69 0x65 0x75 0x6D 0x7D 0x79 0x61 0x71 ∧
  ∀ (o : Operand) (s : State),
    let m := (s.loadOperand o).1
    let n := s.a.toNat + m.toNat + s.sr.c.toNat
    let signed := s.a.toInt + m.toInt + s.sr.c.toNat
    let k := dec s.a + dec m + s.sr.c.toNat
    ∃ t, exec (.adc o) s = .next t ∧ NZFrom t.a t ∧ t.pc = s.pc ∧ t.port = (s.loadOperand o).2.port ∧
      Changes [.a] [.negative, .overflow, .zero, .carry] [] s t ∧
      (s.sr.d = false → t.a.toNat = n % 256 ∧ t.sr.c = decide (n > 0xFF) ∧
        t.sr.v = decide ((s.a ^^^ m) &&& 0x80 = 0 ∧ (s.a ^^^ t.a) &&& 0x80 ≠ 0) ∧
        t.sr.v = decide (signed < -128 ∨ 127 < signed)) ∧
      (s.sr.d = true → t.sr.v = Config.decimalV s.stepNo) ∧
      (s.sr.d = true → Packed s.a ∧ Packed m → t.a = bcd (k % 100) ∧ t.sr.c = decide (k ≥ 100)) ∧
      (s.sr.d = true → ¬(Packed s.a ∧ Packed m) → (t.a, t.sr.c) = Config.bcdAddNonBcd s.a m s.sr.c)

/-- R164 to R167: SBC in binary mode, in decimal mode on packed BCD operands, and in decimal mode on others. The model's choice: the
unspecified V of decimal mode is the free value `Config.decimalV` of the step's number (R164, D6; log entry 3), and the spec's
parameter for other operands is the free function `Config.bcdSubNonBcd` (R167(b), D7; log entry 4). The overflow formula of binary
mode and the equality with `AddBinary` of the complement are what R166 marks as its own derivations (log entry 28). -/
def Obligations.SbcSubtractsWithBorrow : Prop :=
  AccumulatorEncoding .sbc 0xE9 0xE5 0xF5 0xED 0xFD 0xF9 0xE1 0xF1 ∧
  (∀ (a m : Byte) (cin : Bool), subBinary a m cin = addBinary a (~~~m) cin) ∧
  ∀ (o : Operand) (s : State),
    let m := (s.loadOperand o).1
    let n : Int := (s.a.toNat : Int) - m.toNat - (1 - s.sr.c.toNat)
    let signed := s.a.toInt - m.toInt - (1 - s.sr.c.toNat)
    let k : Int := (dec s.a : Int) - dec m - (1 - s.sr.c.toNat)
    ∃ t, exec (.sbc o) s = .next t ∧ NZFrom t.a t ∧ t.pc = s.pc ∧ t.port = (s.loadOperand o).2.port ∧
      Changes [.a] [.negative, .overflow, .zero, .carry] [] s t ∧
      (s.sr.d = false → (t.a.toNat : Int) = n % 256 ∧ t.sr.c = decide (n ≥ 0) ∧
        t.sr.v = decide ((s.a ^^^ m) &&& 0x80 ≠ 0 ∧ (s.a ^^^ t.a) &&& 0x80 ≠ 0) ∧
        t.sr.v = decide (signed < -128 ∨ 127 < signed)) ∧
      (s.sr.d = true → t.sr.v = Config.decimalV s.stepNo) ∧
      (s.sr.d = true → Packed s.a ∧ Packed m → t.a = bcd (k % 100).toNat ∧ t.sr.c = decide (k ≥ 0)) ∧
      (s.sr.d = true → ¬(Packed s.a ∧ Packed m) → (t.a, t.sr.c) = Config.bcdSubNonBcd s.a m s.sr.c)

/-! ### Shifts and rotates -/

/-- R180 to R184: ASL, LSR, ROL and ROR, on the accumulator and on memory. -/
def Obligations.ShiftsAndRotates : Prop :=
  ShiftEncoding .asl 0x0A 0x06 0x16 0x0E 0x1E ∧ ShiftRule .asl (fun m _ => 2 * m % 256) 7 ∧
  ShiftEncoding .lsr 0x4A 0x46 0x56 0x4E 0x5E ∧ ShiftRule .lsr (fun m _ => m / 2) 0 ∧
  ShiftEncoding .rol 0x2A 0x26 0x36 0x2E 0x3E ∧ ShiftRule .rol (fun m c => (2 * m + c) % 256) 7 ∧
  ShiftEncoding .ror 0x6A 0x66 0x76 0x6E 0x7E ∧ ShiftRule .ror (fun m c => 128 * c + m / 2) 0

/-! ### Compare, increment, decrement and BIT -/

/-- R190 to R193: CMP, CPX and CPY. -/
def Obligations.Compares : Prop :=
  AccumulatorEncoding .cmp 0xC9 0xC5 0xD5 0xCD 0xDD 0xD9 0xC1 0xD1 ∧ CompareRule .cmp .a ∧
  (EncodesByte (fun b => .cpx (.imm b)) 0xE0 ∧ EncodesByte (fun b => .cpx (.mem (.zp b))) 0xE4 ∧
    EncodesWord (fun w => .cpx (.mem (.abs w))) 0xEC) ∧ CompareRule .cpx .x ∧
  (EncodesByte (fun b => .cpy (.imm b)) 0xC0 ∧ EncodesByte (fun b => .cpy (.mem (.zp b))) 0xC4 ∧
    EncodesWord (fun w => .cpy (.mem (.abs w))) 0xCC) ∧ CompareRule .cpy .y

/-- R194, R195: INC and DEC. -/
def Obligations.MemoryIncrements : Prop :=
  (EncodesByte (fun b => .inc (.zp b)) 0xE6 ∧ EncodesByte (fun b => .inc (.zpx b)) 0xF6 ∧
    EncodesWord (fun w => .inc (.abs w)) 0xEE ∧ EncodesWord (fun w => .inc (.abx w)) 0xFE) ∧ IncDecMemoryRule .inc 1 ∧
  (EncodesByte (fun b => .dec (.zp b)) 0xC6 ∧ EncodesByte (fun b => .dec (.zpx b)) 0xD6 ∧
    EncodesWord (fun w => .dec (.abs w)) 0xCE ∧ EncodesWord (fun w => .dec (.abx w)) 0xDE) ∧ IncDecMemoryRule .dec 255

/-- R196 to R199: INX, INY, DEX and DEY. -/
def Obligations.RegisterIncrements : Prop :=
  Encodes .inx [0xE8] ∧ IncDecRegisterRule .inx .x 1 ∧ Encodes .iny [0xC8] ∧ IncDecRegisterRule .iny .y 1 ∧
  Encodes .dex [0xCA] ∧ IncDecRegisterRule .dex .x 255 ∧ Encodes .dey [0x88] ∧ IncDecRegisterRule .dey .y 255

/-- R200: BIT takes Z from `A & M`, and N and V from the operand. -/
def Obligations.BitTest : Prop :=
  EncodesByte (fun b => .bit (.zp b)) 0x24 ∧ EncodesWord (fun w => .bit (.abs w)) 0x2C ∧
  ∀ (m : MemMode) (s : State),
    let v := (s.loadOperand (.mem m)).1
    ∃ t, exec (.bit m) s = .next t ∧ (t.sr.z = true ↔ s.a &&& v = 0) ∧ t.sr.n = v.getLsbD 7 ∧ t.sr.v = v.getLsbD 6 ∧
      t.pc = s.pc ∧ t.port = (s.loadOperand (.mem m)).2.port ∧ Changes [] [.negative, .overflow, .zero] [] s t

/-! ### The stack -/

/-- R210, R211: the push and pull primitives; the stack byte designated by SP is at `0x0100 + SP`, and SP wraps. -/
def Obligations.PushAndPull : Prop :=
  (∀ p : Byte, (stackAddr p).toNat = 0x100 + p.toNat) ∧
  (∀ (s : State) (v : Byte), Pushed v s (s.push v) ∧ (s.push v).pc = s.pc ∧ Changes [.sp] [] [stackAddr s.sp] s (s.push v) ∧
    (s.push v).sp.toNat = (s.sp.toNat + 255) % 256) ∧
  (∀ s : State, Pulled s.pull.1 s s.pull.2 ∧ s.pull.2.pc = s.pc ∧ Changes [.sp] [] [] s s.pull.2 ∧
    s.pull.2.sp.toNat = (s.sp.toNat + 1) % 256)

/-- R212: a 16-bit value is pushed high byte first, pulled low byte first, and comes back exactly. -/
def Obligations.PushedWordPullsBack : Prop :=
  ∀ (s : State) (v : Addr),
    (s.push16 v).port = s.port ++ [.write (stackAddr s.sp) (hiByte v), .write (stackAddr (s.sp - 1)) (loByte v)] ∧
    (∃ lo hi, s.pull16.2.port = s.port ++ [.read (stackAddr (s.sp + 1)) lo, .read (stackAddr (s.sp + 2)) hi] ∧
      s.pull16.1 = joinBytes hi lo) ∧
    (s.plain (stackAddr s.sp) = true → s.plain (stackAddr (s.sp - 1)) = true →
      (s.push16 v).pull16.1 = v ∧ (s.push16 v).pull16.2.sp = s.sp)

/-- R213: pushing and then pulling up to 256 bytes returns them in reverse order and restores SP, wherever SP starts; no byte
outside page 1 changes. -/
def Obligations.StackIsLastInFirstOut : Prop :=
  ∀ (bs : List Byte) (s : State), bs.length ≤ 256 → PlainStack s →
    (pullMany (pushAll s bs) bs.length).1 = bs.reverse ∧ (pullMany (pushAll s bs) bs.length).2.sp = s.sp ∧
    ∀ a : Addr, a.toNat < 0x100 ∨ 0x1FF < a.toNat → (pushAll s bs).peek a = s.peek a

/-- R214, R215, R216, R217: PHA, PLA, PHP and PLP. -/
def Obligations.StackInstructions : Prop :=
  (Encodes .pha [0x48] ∧ ∀ s : State, ∃ t, exec .pha s = .next t ∧ Pushed s.a s t ∧ t.pc = s.pc ∧
    Changes [.sp] [] [stackAddr s.sp] s t) ∧
  (Encodes .pla [0x68] ∧ ∀ s : State, ∃ t v, exec .pla s = .next t ∧ Pulled v s t ∧ t.a = v ∧ NZFrom v t ∧ t.pc = s.pc ∧
    Changes [.a, .sp] [.negative, .zero] [] s t) ∧
  (Encodes .php [0x08] ∧ ∀ s : State, ∃ t, exec .php s = .next t ∧ Pushed ({ s.sr with b := true } : Flags).toByte s t ∧
    t.pc = s.pc ∧ Changes [.sp] [] [stackAddr s.sp] s t) ∧
  (Encodes .plp [0x28] ∧ ∀ s : State, ∃ t v, exec .plp s = .next t ∧ Pulled v s t ∧ t.sr.c = v.getLsbD 0 ∧
    t.sr.z = v.getLsbD 1 ∧ t.sr.i = v.getLsbD 2 ∧ t.sr.d = v.getLsbD 3 ∧ t.sr.b = false ∧ t.sr.v = v.getLsbD 6 ∧
    t.sr.n = v.getLsbD 7 ∧ t.pc = s.pc ∧ RegsKeptBut [.sp] s t ∧ MemKeptBut [] s t)

/-- R213: the stack instructions access page 1 only, but for BRK's read of its vector, and change no byte outside page 1. -/
def Obligations.StackStaysInPageOne : Prop :=
  ∀ (i : Instr) (s t : State), usesStack i = true → exec i s = .next t →
    (∃ new, t.port = s.port ++ new ∧ ∀ e ∈ new,
      (0x100 ≤ (accessAddr e).toNat ∧ (accessAddr e).toNat ≤ 0x1FF) ∨
      (i = .brk ∧ (accessAddr e = 0xFFFE ∨ accessAddr e = 0xFFFF))) ∧
    ∀ a : Addr, a.toNat < 0x100 ∨ 0x1FF < a.toNat → t.peek a = s.peek a

/-! ### Control transfer -/

/-- R231, R305: BRK pushes the address after its signature byte and the status with Break forced to 1, sets I, and loads PC from
the vector; the signature byte is skipped and not read. The model's choice: the encoder writes 0x00 as the signature byte, where
R231 admits any (log entry 14). -/
def Obligations.BrkEntersThroughVector : Prop :=
  Encodes .brk [0x00, 0x00] ∧ (∀ sig rest, decode (0x00 :: sig :: rest) = .ok (.brk, rest)) ∧
  (∀ s : State, s.plain s.pc = true → s.peek s.pc = 0x00 →
    step s = exec .brk { s with pc := s.pc + 2, stepNo := s.stepNo + 1, port := [.read s.pc 0x00] }) ∧
  ∀ s : State,
    let status := ({ s.sr with b := true } : Flags).toByte
    ∃ t lo hi, exec .brk s = .next t ∧
      t.port = s.port ++ [.write (stackAddr s.sp) (hiByte s.pc), .write (stackAddr (s.sp - 1)) (loByte s.pc),
        .write (stackAddr (s.sp - 2)) status, .read 0xFFFE lo, .read 0xFFFF hi] ∧
      Stored (stackAddr s.sp) (hiByte s.pc) s t ∧ Stored (stackAddr (s.sp - 1)) (loByte s.pc) s t ∧
      Stored (stackAddr (s.sp - 2)) status s t ∧ t.sp = s.sp - 3 ∧ t.sr.i = true ∧ t.pc = joinBytes hi lo ∧
      (s.plain 0xFFFE = true → lo = s.peek 0xFFFE) ∧ (s.plain 0xFFFF = true → hi = s.peek 0xFFFF) ∧
      Changes [.sp] [.interruptDisable] [stackAddr s.sp, stackAddr (s.sp - 1), stackAddr (s.sp - 2)] s t

/-- R232: RTI pulls the status, every flag from it, then PC low and PC high, with no increment. -/
def Obligations.RtiReturns : Prop :=
  Encodes .rti [0x40] ∧
  ∀ s : State, ∃ t st lo hi, exec .rti s = .next t ∧
    t.port = s.port ++ [.read (stackAddr (s.sp + 1)) st, .read (stackAddr (s.sp + 2)) lo, .read (stackAddr (s.sp + 3)) hi] ∧
    (PlainStack s → st = s.peek (stackAddr (s.sp + 1)) ∧ lo = s.peek (stackAddr (s.sp + 2)) ∧
      hi = s.peek (stackAddr (s.sp + 3))) ∧
    t.sr.c = st.getLsbD 0 ∧ t.sr.z = st.getLsbD 1 ∧ t.sr.i = st.getLsbD 2 ∧ t.sr.d = st.getLsbD 3 ∧
    t.sr.b = st.getLsbD 4 ∧ t.sr.v = st.getLsbD 6 ∧ t.sr.n = st.getLsbD 7 ∧ t.sp = s.sp + 3 ∧ t.pc = joinBytes hi lo ∧
    RegsKeptBut [.sp] s t ∧ MemKeptBut [] s t

/-- An RTI right after a BRK's entry returns past the signature byte and restores SP and every flag but B, which becomes 1. -/
def Obligations.RtiUndoesBrk : Prop :=
  ∀ s : State, PlainStack s → ∃ t u, exec .brk s = .next t ∧ exec .rti t = .next u ∧ u.pc = s.pc ∧
    u.sr = { s.sr with b := true } ∧ RegsKeptBut [] s u

/-- R233: JSR fetches both operand bytes before it pushes, pushes the address of its own last byte, high byte first, and jumps. -/
def Obligations.JsrPushesLastByteAddress : Prop :=
  EncodesWord .jsr 0x20 ∧
  (∀ (s : State) (lo hi : Byte), s.plain s.pc = true → s.plain (s.pc + 1) = true → s.plain (s.pc + 2) = true →
    s.peek s.pc = 0x20 → s.peek (s.pc + 1) = lo → s.peek (s.pc + 2) = hi →
    step s = exec (.jsr (joinBytes hi lo)) { s with
      pc := s.pc + 3
      stepNo := s.stepNo + 1
      port := [.read s.pc 0x20, .read (s.pc + 1) lo, .read (s.pc + 2) hi] }) ∧
  ∀ (w : Addr) (s : State), ∃ t, exec (.jsr w) s = .next t ∧ t.pc = w ∧ t.sp = s.sp - 2 ∧
    t.port = s.port ++ [.write (stackAddr s.sp) (hiByte (s.pc - 1)), .write (stackAddr (s.sp - 1)) (loByte (s.pc - 1))] ∧
    Stored (stackAddr s.sp) (hiByte (s.pc - 1)) s t ∧ Stored (stackAddr (s.sp - 1)) (loByte (s.pc - 1)) s t ∧
    Changes [.sp] [] [stackAddr s.sp, stackAddr (s.sp - 1)] s t

/-- R234: RTS pulls an address, low byte first, and sets PC to it plus one. -/
def Obligations.RtsReturnsToNextByte : Prop :=
  Encodes .rts [0x60] ∧
  ∀ s : State, ∃ t lo hi, exec .rts s = .next t ∧
    t.port = s.port ++ [.read (stackAddr (s.sp + 1)) lo, .read (stackAddr (s.sp + 2)) hi] ∧
    (PlainStack s → lo = s.peek (stackAddr (s.sp + 1)) ∧ hi = s.peek (stackAddr (s.sp + 2))) ∧
    t.pc = joinBytes hi lo + 1 ∧ t.sp = s.sp + 2 ∧ Changes [.sp] [] [] s t

/-- `JSR` followed by `RTS` leaves PC at the byte after the JSR and SP as it was. -/
def Obligations.RtsUndoesJsr : Prop :=
  ∀ (w : Addr) (s : State), PlainStack s → ∃ t u, exec (.jsr w) s = .next t ∧ exec .rts t = .next u ∧ u.pc = s.pc ∧
    RegsKeptBut [] s u ∧ FlagsKeptBut [] s u

/-- R235, R236, R132: JMP absolute and indirect; the indirect pointer's high byte comes from the pointer's own page. -/
def Obligations.JumpsSetPC : Prop :=
  (EncodesWord (fun w => .jmp (.abs w)) 0x4C ∧ ∀ (w : Addr) (s : State), ∃ t, exec (.jmp (.abs w)) s = .next t ∧ t.pc = w ∧
    t.port = s.port ∧ Changes [] [] [] s t) ∧
  (EncodesWord (fun w => .jmp (.ind w)) 0x6C ∧ ∀ (w : Addr) (s : State), ∃ t q, exec (.jmp (.ind w)) s = .next t ∧
    q.toNat = w.toNat / 256 * 256 + (w.toNat + 1) % 256 ∧ PairRead w q t.pc s { t with pc := s.pc } ∧ Changes [] [] [] s t)

/-- R237 to R245: the eight conditional branches. -/
def Obligations.ConditionalBranches : Prop :=
  BranchRule .bpl 0x10 (fun s => !s.sr.n) ∧ BranchRule .bmi 0x30 (fun s => s.sr.n) ∧
  BranchRule .bvc 0x50 (fun s => !s.sr.v) ∧ BranchRule .bvs 0x70 (fun s => s.sr.v) ∧
  BranchRule .bcc 0x90 (fun s => !s.sr.c) ∧ BranchRule .bcs 0xB0 (fun s => s.sr.c) ∧
  BranchRule .bne 0xD0 (fun s => !s.sr.z) ∧ BranchRule .beq 0xF0 (fun s => s.sr.z)

/-! ### Loads, stores and transfers -/

/-- R260, R261, R262: LDA, LDX and LDY. -/
def Obligations.Loads : Prop :=
  AccumulatorEncoding .lda 0xA9 0xA5 0xB5 0xAD 0xBD 0xB9 0xA1 0xB1 ∧ LoadRule .lda .a ∧
  (EncodesByte (fun b => .ldx (.imm b)) 0xA2 ∧ EncodesByte (fun b => .ldx (.mem (.zp b))) 0xA6 ∧
    EncodesByte (fun b => .ldx (.mem (.zpy b))) 0xB6 ∧ EncodesWord (fun w => .ldx (.mem (.abs w))) 0xAE ∧
    EncodesWord (fun w => .ldx (.mem (.aby w))) 0xBE) ∧ LoadRule .ldx .x ∧
  (EncodesByte (fun b => .ldy (.imm b)) 0xA0 ∧ EncodesByte (fun b => .ldy (.mem (.zp b))) 0xA4 ∧
    EncodesByte (fun b => .ldy (.mem (.zpx b))) 0xB4 ∧ EncodesWord (fun w => .ldy (.mem (.abs w))) 0xAC ∧
    EncodesWord (fun w => .ldy (.mem (.abx w))) 0xBC) ∧ LoadRule .ldy .y

/-- R263, R264, R265: STA, STX and STY. -/
def Obligations.Stores : Prop :=
  (EncodesByte (fun b => .sta (.zp b)) 0x85 ∧ EncodesByte (fun b => .sta (.zpx b)) 0x95 ∧
    EncodesWord (fun w => .sta (.abs w)) 0x8D ∧ EncodesWord (fun w => .sta (.abx w)) 0x9D ∧
    EncodesWord (fun w => .sta (.aby w)) 0x99 ∧ EncodesByte (fun b => .sta (.izx b)) 0x81 ∧
    EncodesByte (fun b => .sta (.izy b)) 0x91) ∧ StoreRule .sta .a ∧
  (EncodesByte (fun b => .stx (.zp b)) 0x86 ∧ EncodesByte (fun b => .stx (.zpy b)) 0x96 ∧
    EncodesWord (fun w => .stx (.abs w)) 0x8E) ∧ StoreRule .stx .x ∧
  (EncodesByte (fun b => .sty (.zp b)) 0x84 ∧ EncodesByte (fun b => .sty (.zpx b)) 0x94 ∧
    EncodesWord (fun w => .sty (.abs w)) 0x8C) ∧ StoreRule .sty .y

/-- R266 to R271: the register transfers; TXS alone writes no flag. -/
def Obligations.RegisterTransfers : Prop :=
  TransferRule .tax 0xAA .a .x ∧ TransferRule .tay 0xA8 .a .y ∧ TransferRule .txa 0x8A .x .a ∧
  TransferRule .tya 0x98 .y .a ∧ TransferRule .tsx 0xBA .sp .x ∧
  Encodes .txs [0x9A] ∧ ∀ s : State, ∃ t, exec .txs s = .next t ∧ t.sp = s.x ∧ t.pc = s.pc ∧ t.port = s.port ∧
    Changes [.sp] [] [] s t

/-! ### Flag instructions, NOP and undefined opcodes -/

/-- R280 to R286: the seven flag instructions. -/
def Obligations.FlagInstructions : Prop :=
  FlagRule .clc 0x18 .carry false ∧ FlagRule .sec 0x38 .carry true ∧ FlagRule .cli 0x58 .interruptDisable false ∧
  FlagRule .sei 0x78 .interruptDisable true ∧ FlagRule .cld 0xD8 .decimal false ∧ FlagRule .sed 0xF8 .decimal true ∧
  FlagRule .clv 0xB8 .overflow false

/-- R287, R290: NOP and every undefined opcode do nothing but advance PC by one, whatever byte follows. -/
def Obligations.NopAndUndefinedOnlyAdvancePC : Prop :=
  Encodes .nop [0xEA] ∧ (∀ s : State, exec .nop s = .next s) ∧ (∀ (op : Byte) (s : State), exec (.undef op) s = .next s) ∧
  ∀ (s : State), s.plain s.pc = true → s.peek s.pc = 0xEA ∨ s.peek s.pc ∈ undefinedOpcodes →
    step s = .next { s with pc := s.pc + 1, stepNo := s.stepNo + 1, port := [.read s.pc (s.peek s.pc)] }

/-! ### The whole machine -/

/-- R32, R33, R34, R37, R40: no instruction but those the rules name writes A, X, Y, SP, or moves PC once it has been fetched. -/
def Obligations.RegisterWriters : Prop :=
  ∀ (i : Instr) (s t : State), exec i s = .next t →
    (writesA i = false → t.a = s.a) ∧ (writesX i = false → t.x = s.x) ∧ (writesY i = false → t.y = s.y) ∧
    (writesSP i = false → t.sp = s.sp) ∧ (writesPC i = false → t.pc = s.pc)

/-- R44 to R50: no instruction but those the rules name writes a flag. -/
def Obligations.FlagWriters : Prop :=
  ∀ (i : Instr) (s t : State), exec i s = .next t →
    (writesC i = false → t.sr.c = s.sr.c) ∧ (writesNZ i = false → t.sr.z = s.sr.z ∧ t.sr.n = s.sr.n) ∧
    (writesV i = false → t.sr.v = s.sr.v) ∧ (writesI i = false → t.sr.i = s.sr.i) ∧
    (writesD i = false → t.sr.d = s.sr.d) ∧ (writesB i = false → t.sr.b = s.sr.b)

/-- R69, R121: no instruction but the stores, the read-modify-writes and the pushes changes a byte of memory. -/
def Obligations.MemoryWriters : Prop :=
  ∀ (i : Instr) (s t : State), exec i s = .next t → writesMemory i = false → MemKeptBut [] s t

/-- R49: no step's result depends on the live B: two states that differ in B alone step to states that differ in B alone. -/
def Obligations.BreakFlagIsNeverRead : Prop :=
  ∀ (s : State) (b : Bool), ∃ t b', step s = .next t ∧
    step { s with sr := { s.sr with b := b } } = .next { t with sr := { t.sr with b := b' } }

/-- R48: but for ADC, SBC and the two that push the status, no instruction's result depends on D. -/
def Obligations.DecimalFlagIsReadOnlyByAdcAndSbc : Prop :=
  ∀ (i : Instr) (s : State) (d : Bool), (∀ o, i ≠ .adc o) → (∀ o, i ≠ .sbc o) → i ≠ .php → i ≠ .brk →
    ∃ t d', exec i s = .next t ∧
      exec i { s with sr := { s.sr with d := d } } = .next { t with sr := { t.sr with d := d' } }

/-- R303: I masks nothing: but for the two that push the status, no instruction's result depends on it, and BRK is taken
whatever it holds. -/
def Obligations.InterruptDisableMasksNothing : Prop :=
  (∀ (i : Instr) (s : State) (v : Bool), i ≠ .php → i ≠ .brk →
    ∃ t v', exec i s = .next t ∧ exec i { s with sr := { s.sr with i := v } } = .next { t with sr := { t.sr with i := v' } }) ∧
  ∀ (s : State) (v : Bool), ∃ t u, exec .brk s = .next t ∧ exec .brk { s with sr := { s.sr with i := v } } = .next u ∧
    u.pc = t.pc ∧ u.sr = t.sr ∧ u.sp = t.sp

/-! ### Runs -/

/-- The model's choice of the end of a run (log entry 27; R335 names a stop address only as an example): a run is answered exactly
when its stop address is reached within the bound, and then with the first state at it. -/
def Obligations.RunEndsAtFirstReach : Prop :=
  ∀ (stop : Addr) (fuel : Nat) (s : State),
    (∀ k t, runUntil stop fuel s = some (k, t) → ∀ j < k, ∃ u, core.run j s = .next u ∧ u.pc ≠ stop) ∧
    ∀ n u, n ≤ fuel → core.run n s = .next u → u.pc = stop → ∃ k t, k ≤ n ∧ runUntil stop fuel s = some (k, t)

/-! ### The host's access to memory -/

/-- R342, R66: the host reads in `PlainRam` what it or the core wrote last, and a write there changes no other byte of `PlainRam`. The
model's choice (log entry 30): a host read outside `PlainRam` is a free value of the step number and the address, so, by the third
clause at a `b` outside `PlainRam`, two host reads of a device agree across a write elsewhere, which R66 does not say; and a host
write outside `PlainRam` stores nothing. -/
def Obligations.HostReadsWhatWasWritten : Prop :=
  ∀ (s : State) (a : Addr) (v : Byte),
    (s.plain a = true → s.hostRead a = s.peek a ∧ s.hostRead a = (s.memRead a).1 ∧ (s.hostWrite a v).hostRead a = v ∧
      (s.memWrite a v).hostRead a = v) ∧
    (s.plain a = false → s.hostRead a = Config.hostDeviceByte s.stepNo a ∧ s.hostWrite a v = s) ∧
    (∀ b, b ≠ a → (s.hostWrite a v).hostRead b = s.hostRead b ∧ (s.memWrite a v).hostRead b = s.hostRead b) ∧
    (s.hostWrite a v).pc = s.pc ∧ (s.hostWrite a v).port = s.port ∧ Changes [] [] [a] s (s.hostWrite a v)
end

