-- ==== Sys2Proof/Laws/Memory.lean ====
section
/-! SUPPORT. Reading after writing memory, and that writing keeps the canonical form. -/
namespace Sys2Proof.Machine

theorem Memory.get_removeCell_self (m : Memory) (a : Nat) : (Memory.removeCell m a).get a = Memory.unlisted := by
  induction m with
  | nil => rfl
  | cons c m ih =>
    obtain ⟨k, w⟩ := c
    by_cases h : k = a <;> simp [Memory.removeCell, Memory.get, h, ih]

theorem Memory.get_removeCell_other (m : Memory) {a b : Nat} (hab : b ≠ a) :
    (Memory.removeCell m a).get b = m.get b := by
  induction m with
  | nil => rfl
  | cons c m ih =>
    obtain ⟨k, w⟩ := c
    by_cases h : k = a
    · simp [Memory.removeCell, Memory.get, h, ih, hab.symm]
    · simp [Memory.removeCell, Memory.get, h, ih]

theorem Memory.get_insertCell_other (m : Memory) {a b : Nat} (v : Byte) (hab : b ≠ a) :
    (Memory.insertCell m a v).get b = m.get b := by
  induction m with
  | nil => simp [Memory.insertCell, Memory.get, hab.symm]
  | cons c m ih =>
    obtain ⟨k, w⟩ := c
    by_cases h : a < k
    · simp [Memory.insertCell, Memory.get, h, hab.symm]
    · simp [Memory.insertCell, Memory.get, h, ih]

theorem Memory.get_insertCell_removeCell (m : Memory) (a : Nat) (v : Byte) :
    (Memory.insertCell (Memory.removeCell m a) a v).get a = v := by
  induction m with
  | nil => simp [Memory.removeCell, Memory.insertCell, Memory.get]
  | cons c m ih =>
    obtain ⟨k, w⟩ := c
    by_cases h : k = a
    · simpa [Memory.removeCell, h] using ih
    · by_cases h' : a < k
      · simp [Memory.removeCell, Memory.insertCell, Memory.get, h, h']
      · simp [Memory.removeCell, Memory.insertCell, Memory.get, h, h', ih]

/-- A byte reads as it was last written. -/
theorem Memory.get_set_self (m : Memory) (a : Nat) (v : Byte) : (m.set a v).get a = v := by
  unfold Memory.set
  split
  · next h => rw [Memory.get_removeCell_self, h]
  · exact Memory.get_insertCell_removeCell m a v

/-- A write leaves every other byte alone. -/
theorem Memory.get_set_other (m : Memory) {a b : Nat} (v : Byte) (hab : b ≠ a) : (m.set a v).get b = m.get b := by
  unfold Memory.set
  split
  · exact Memory.get_removeCell_other m hab
  · rw [Memory.get_insertCell_other _ v hab, Memory.get_removeCell_other m hab]

theorem Memory.get_set (m : Memory) (a b : Nat) (v : Byte) : (m.set a v).get b = if b = a then v else m.get b := by
  split
  · next h => rw [h, Memory.get_set_self]
  · next h => exact Memory.get_set_other m v h

theorem Memory.wfFrom_mono {lo lo' : Nat} (h : lo' ≤ lo) (m : Memory) (hm : Memory.wfFrom lo m = true) :
    Memory.wfFrom lo' m = true := by
  cases m with
  | nil => rfl
  | cons c m =>
    obtain ⟨k, w⟩ := c
    simp only [Memory.wfFrom, Bool.and_eq_true, decide_eq_true_eq] at hm ⊢
    exact ⟨⟨⟨le_trans h hm.1.1.1, hm.1.1.2⟩, hm.1.2⟩, hm.2⟩

theorem Memory.wfFrom_removeCell (a : Nat) (m : Memory) : ∀ lo, Memory.wfFrom lo m = true →
    Memory.wfFrom lo (Memory.removeCell m a) = true := by
  induction m with
  | nil => intro lo h; exact h
  | cons c m ih =>
    obtain ⟨k, w⟩ := c
    intro lo hm
    simp only [Memory.wfFrom, Bool.and_eq_true, decide_eq_true_eq] at hm
    by_cases h : k = a
    · simpa [Memory.removeCell, h] using
        Memory.wfFrom_mono (by omega : lo ≤ k + 1) _ (ih _ hm.2)
    · simp only [Memory.removeCell, h, if_false, Memory.wfFrom, Bool.and_eq_true, decide_eq_true_eq]
      exact ⟨hm.1, ih _ hm.2⟩

theorem Memory.wfFrom_insertCell {a : Nat} {v : Byte} (ha : a < 65536) (hv : v ≠ Memory.unlisted) (m : Memory) :
    ∀ lo, lo ≤ a → (∀ c ∈ m, c.1 ≠ a) → Memory.wfFrom lo m = true →
      Memory.wfFrom lo (Memory.insertCell m a v) = true := by
  induction m with
  | nil => intro lo hlo _ _; simp [Memory.insertCell, Memory.wfFrom, hlo, ha, hv]
  | cons c m ih =>
    obtain ⟨k, w⟩ := c
    intro lo hlo hn hm
    simp only [Memory.wfFrom, Bool.and_eq_true, decide_eq_true_eq] at hm
    by_cases h : a < k
    · simp only [Memory.insertCell, h, if_true, Memory.wfFrom, Bool.and_eq_true, decide_eq_true_eq]
      exact ⟨⟨⟨hlo, ha⟩, hv⟩, ⟨⟨h, hm.1.1.2⟩, hm.1.2⟩, hm.2⟩
    · have hk : k ≠ a := hn (k, w) (by simp)
      simp only [Memory.insertCell, h, if_false, Memory.wfFrom, Bool.and_eq_true, decide_eq_true_eq]
      exact ⟨hm.1, ih (k + 1) (by omega) (fun c hc => hn c (by simp [hc])) hm.2⟩

theorem Memory.not_mem_removeCell (m : Memory) (a : Nat) : ∀ c ∈ Memory.removeCell m a, c.1 ≠ a := by
  induction m with
  | nil => simp [Memory.removeCell]
  | cons c m ih =>
    obtain ⟨k, w⟩ := c
    by_cases h : k = a
    · simpa [Memory.removeCell, h] using ih
    · simpa [Memory.removeCell, h] using ih

/-- Every write keeps the canonical form. -/
theorem Memory.wf_set {m : Memory} {a : Nat} {v : Byte} (ha : a < 65536) (hm : m.wf = true) : (m.set a v).wf = true := by
  unfold Memory.set Memory.wf
  split
  · exact Memory.wfFrom_removeCell a m 0 hm
  · next h =>
    exact Memory.wfFrom_insertCell ha h _ 0 (Nat.zero_le a) (Memory.not_mem_removeCell m a)
      (Memory.wfFrom_removeCell a m 0 hm)

theorem Memory.wf_nil : Memory.wf [] = true := rfl

end Sys2Proof.Machine
end

