-- ==== Sys2Proof/Laws/State.lean ====
section
/-! SUPPORT. One lemma per field per update of the state, and what the looks at the state (plain, peek) see of an update. -/
namespace Sys2Proof.Machine

/-! ### setA -/

@[simp] theorem State.setA_a (s : State) (v : Byte) : (s.setA v).a = v := rfl
@[simp] theorem State.setA_x (s : State) (v : Byte) : (s.setA v).x = s.x := rfl
@[simp] theorem State.setA_y (s : State) (v : Byte) : (s.setA v).y = s.y := rfl
@[simp] theorem State.setA_sp (s : State) (v : Byte) : (s.setA v).sp = s.sp := rfl
@[simp] theorem State.setA_pc (s : State) (v : Byte) : (s.setA v).pc = s.pc := rfl
@[simp] theorem State.setA_sr (s : State) (v : Byte) : (s.setA v).sr = s.sr := rfl
@[simp] theorem State.setA_mem (s : State) (v : Byte) : (s.setA v).mem = s.mem := rfl
@[simp] theorem State.setA_devices (s : State) (v : Byte) : (s.setA v).devices = s.devices := rfl
@[simp] theorem State.setA_stepNo (s : State) (v : Byte) : (s.setA v).stepNo = s.stepNo := rfl
@[simp] theorem State.setA_port (s : State) (v : Byte) : (s.setA v).port = s.port := rfl
@[simp] theorem State.setA_plain (s : State) (v : Byte) (c : Addr) : (s.setA v).plain c = s.plain c := rfl
@[simp] theorem State.setA_peek (s : State) (v : Byte) (c : Addr) : (s.setA v).peek c = s.peek c := rfl

/-! ### setX -/

@[simp] theorem State.setX_a (s : State) (v : Byte) : (s.setX v).a = s.a := rfl
@[simp] theorem State.setX_x (s : State) (v : Byte) : (s.setX v).x = v := rfl
@[simp] theorem State.setX_y (s : State) (v : Byte) : (s.setX v).y = s.y := rfl
@[simp] theorem State.setX_sp (s : State) (v : Byte) : (s.setX v).sp = s.sp := rfl
@[simp] theorem State.setX_pc (s : State) (v : Byte) : (s.setX v).pc = s.pc := rfl
@[simp] theorem State.setX_sr (s : State) (v : Byte) : (s.setX v).sr = s.sr := rfl
@[simp] theorem State.setX_mem (s : State) (v : Byte) : (s.setX v).mem = s.mem := rfl
@[simp] theorem State.setX_devices (s : State) (v : Byte) : (s.setX v).devices = s.devices := rfl
@[simp] theorem State.setX_stepNo (s : State) (v : Byte) : (s.setX v).stepNo = s.stepNo := rfl
@[simp] theorem State.setX_port (s : State) (v : Byte) : (s.setX v).port = s.port := rfl
@[simp] theorem State.setX_plain (s : State) (v : Byte) (c : Addr) : (s.setX v).plain c = s.plain c := rfl
@[simp] theorem State.setX_peek (s : State) (v : Byte) (c : Addr) : (s.setX v).peek c = s.peek c := rfl

/-! ### setY -/

@[simp] theorem State.setY_a (s : State) (v : Byte) : (s.setY v).a = s.a := rfl
@[simp] theorem State.setY_x (s : State) (v : Byte) : (s.setY v).x = s.x := rfl
@[simp] theorem State.setY_y (s : State) (v : Byte) : (s.setY v).y = v := rfl
@[simp] theorem State.setY_sp (s : State) (v : Byte) : (s.setY v).sp = s.sp := rfl
@[simp] theorem State.setY_pc (s : State) (v : Byte) : (s.setY v).pc = s.pc := rfl
@[simp] theorem State.setY_sr (s : State) (v : Byte) : (s.setY v).sr = s.sr := rfl
@[simp] theorem State.setY_mem (s : State) (v : Byte) : (s.setY v).mem = s.mem := rfl
@[simp] theorem State.setY_devices (s : State) (v : Byte) : (s.setY v).devices = s.devices := rfl
@[simp] theorem State.setY_stepNo (s : State) (v : Byte) : (s.setY v).stepNo = s.stepNo := rfl
@[simp] theorem State.setY_port (s : State) (v : Byte) : (s.setY v).port = s.port := rfl
@[simp] theorem State.setY_plain (s : State) (v : Byte) (c : Addr) : (s.setY v).plain c = s.plain c := rfl
@[simp] theorem State.setY_peek (s : State) (v : Byte) (c : Addr) : (s.setY v).peek c = s.peek c := rfl

/-! ### setSP -/

@[simp] theorem State.setSP_a (s : State) (v : Byte) : (s.setSP v).a = s.a := rfl
@[simp] theorem State.setSP_x (s : State) (v : Byte) : (s.setSP v).x = s.x := rfl
@[simp] theorem State.setSP_y (s : State) (v : Byte) : (s.setSP v).y = s.y := rfl
@[simp] theorem State.setSP_sp (s : State) (v : Byte) : (s.setSP v).sp = v := rfl
@[simp] theorem State.setSP_pc (s : State) (v : Byte) : (s.setSP v).pc = s.pc := rfl
@[simp] theorem State.setSP_sr (s : State) (v : Byte) : (s.setSP v).sr = s.sr := rfl
@[simp] theorem State.setSP_mem (s : State) (v : Byte) : (s.setSP v).mem = s.mem := rfl
@[simp] theorem State.setSP_devices (s : State) (v : Byte) : (s.setSP v).devices = s.devices := rfl
@[simp] theorem State.setSP_stepNo (s : State) (v : Byte) : (s.setSP v).stepNo = s.stepNo := rfl
@[simp] theorem State.setSP_port (s : State) (v : Byte) : (s.setSP v).port = s.port := rfl
@[simp] theorem State.setSP_plain (s : State) (v : Byte) (c : Addr) : (s.setSP v).plain c = s.plain c := rfl
@[simp] theorem State.setSP_peek (s : State) (v : Byte) (c : Addr) : (s.setSP v).peek c = s.peek c := rfl

/-! ### setPC -/

@[simp] theorem State.setPC_a (s : State) (v : Addr) : (s.setPC v).a = s.a := rfl
@[simp] theorem State.setPC_x (s : State) (v : Addr) : (s.setPC v).x = s.x := rfl
@[simp] theorem State.setPC_y (s : State) (v : Addr) : (s.setPC v).y = s.y := rfl
@[simp] theorem State.setPC_sp (s : State) (v : Addr) : (s.setPC v).sp = s.sp := rfl
@[simp] theorem State.setPC_pc (s : State) (v : Addr) : (s.setPC v).pc = v := rfl
@[simp] theorem State.setPC_sr (s : State) (v : Addr) : (s.setPC v).sr = s.sr := rfl
@[simp] theorem State.setPC_mem (s : State) (v : Addr) : (s.setPC v).mem = s.mem := rfl
@[simp] theorem State.setPC_devices (s : State) (v : Addr) : (s.setPC v).devices = s.devices := rfl
@[simp] theorem State.setPC_stepNo (s : State) (v : Addr) : (s.setPC v).stepNo = s.stepNo := rfl
@[simp] theorem State.setPC_port (s : State) (v : Addr) : (s.setPC v).port = s.port := rfl
@[simp] theorem State.setPC_plain (s : State) (v : Addr) (c : Addr) : (s.setPC v).plain c = s.plain c := rfl
@[simp] theorem State.setPC_peek (s : State) (v : Addr) (c : Addr) : (s.setPC v).peek c = s.peek c := rfl

/-! ### setSR -/

@[simp] theorem State.setSR_a (s : State) (p : Flags) : (s.setSR p).a = s.a := rfl
@[simp] theorem State.setSR_x (s : State) (p : Flags) : (s.setSR p).x = s.x := rfl
@[simp] theorem State.setSR_y (s : State) (p : Flags) : (s.setSR p).y = s.y := rfl
@[simp] theorem State.setSR_sp (s : State) (p : Flags) : (s.setSR p).sp = s.sp := rfl
@[simp] theorem State.setSR_pc (s : State) (p : Flags) : (s.setSR p).pc = s.pc := rfl
@[simp] theorem State.setSR_sr (s : State) (p : Flags) : (s.setSR p).sr = p := rfl
@[simp] theorem State.setSR_mem (s : State) (p : Flags) : (s.setSR p).mem = s.mem := rfl
@[simp] theorem State.setSR_devices (s : State) (p : Flags) : (s.setSR p).devices = s.devices := rfl
@[simp] theorem State.setSR_stepNo (s : State) (p : Flags) : (s.setSR p).stepNo = s.stepNo := rfl
@[simp] theorem State.setSR_port (s : State) (p : Flags) : (s.setSR p).port = s.port := rfl
@[simp] theorem State.setSR_plain (s : State) (p : Flags) (c : Addr) : (s.setSR p).plain c = s.plain c := rfl
@[simp] theorem State.setSR_peek (s : State) (p : Flags) (c : Addr) : (s.setSR p).peek c = s.peek c := rfl

/-! ### setNZ -/

@[simp] theorem State.setNZ_a (s : State) (v : Byte) : (s.setNZ v).a = s.a := rfl
@[simp] theorem State.setNZ_x (s : State) (v : Byte) : (s.setNZ v).x = s.x := rfl
@[simp] theorem State.setNZ_y (s : State) (v : Byte) : (s.setNZ v).y = s.y := rfl
@[simp] theorem State.setNZ_sp (s : State) (v : Byte) : (s.setNZ v).sp = s.sp := rfl
@[simp] theorem State.setNZ_pc (s : State) (v : Byte) : (s.setNZ v).pc = s.pc := rfl
@[simp] theorem State.setNZ_sr (s : State) (v : Byte) : (s.setNZ v).sr = s.sr.withNZ v := rfl
@[simp] theorem State.setNZ_mem (s : State) (v : Byte) : (s.setNZ v).mem = s.mem := rfl
@[simp] theorem State.setNZ_devices (s : State) (v : Byte) : (s.setNZ v).devices = s.devices := rfl
@[simp] theorem State.setNZ_stepNo (s : State) (v : Byte) : (s.setNZ v).stepNo = s.stepNo := rfl
@[simp] theorem State.setNZ_port (s : State) (v : Byte) : (s.setNZ v).port = s.port := rfl
@[simp] theorem State.setNZ_plain (s : State) (v : Byte) (c : Addr) : (s.setNZ v).plain c = s.plain c := rfl
@[simp] theorem State.setNZ_peek (s : State) (v : Byte) (c : Addr) : (s.setNZ v).peek c = s.peek c := rfl

/-! ### setC -/

@[simp] theorem State.setC_a (s : State) (v : Bool) : (s.setC v).a = s.a := rfl
@[simp] theorem State.setC_x (s : State) (v : Bool) : (s.setC v).x = s.x := rfl
@[simp] theorem State.setC_y (s : State) (v : Bool) : (s.setC v).y = s.y := rfl
@[simp] theorem State.setC_sp (s : State) (v : Bool) : (s.setC v).sp = s.sp := rfl
@[simp] theorem State.setC_pc (s : State) (v : Bool) : (s.setC v).pc = s.pc := rfl
@[simp] theorem State.setC_sr (s : State) (v : Bool) : (s.setC v).sr = { s.sr with c := v } := rfl
@[simp] theorem State.setC_mem (s : State) (v : Bool) : (s.setC v).mem = s.mem := rfl
@[simp] theorem State.setC_devices (s : State) (v : Bool) : (s.setC v).devices = s.devices := rfl
@[simp] theorem State.setC_stepNo (s : State) (v : Bool) : (s.setC v).stepNo = s.stepNo := rfl
@[simp] theorem State.setC_port (s : State) (v : Bool) : (s.setC v).port = s.port := rfl
@[simp] theorem State.setC_plain (s : State) (v : Bool) (c : Addr) : (s.setC v).plain c = s.plain c := rfl
@[simp] theorem State.setC_peek (s : State) (v : Bool) (c : Addr) : (s.setC v).peek c = s.peek c := rfl

/-! ### poke -/

@[simp] theorem State.poke_a (s : State) (b : Addr) (v : Byte) : (s.poke b v).a = s.a := rfl
@[simp] theorem State.poke_x (s : State) (b : Addr) (v : Byte) : (s.poke b v).x = s.x := rfl
@[simp] theorem State.poke_y (s : State) (b : Addr) (v : Byte) : (s.poke b v).y = s.y := rfl
@[simp] theorem State.poke_sp (s : State) (b : Addr) (v : Byte) : (s.poke b v).sp = s.sp := rfl
@[simp] theorem State.poke_pc (s : State) (b : Addr) (v : Byte) : (s.poke b v).pc = s.pc := rfl
@[simp] theorem State.poke_sr (s : State) (b : Addr) (v : Byte) : (s.poke b v).sr = s.sr := rfl
@[simp] theorem State.poke_mem (s : State) (b : Addr) (v : Byte) : (s.poke b v).mem = s.mem.set b.toNat v := rfl
@[simp] theorem State.poke_devices (s : State) (b : Addr) (v : Byte) : (s.poke b v).devices = s.devices := rfl
@[simp] theorem State.poke_stepNo (s : State) (b : Addr) (v : Byte) : (s.poke b v).stepNo = s.stepNo := rfl
@[simp] theorem State.poke_port (s : State) (b : Addr) (v : Byte) : (s.poke b v).port = s.port := rfl
@[simp] theorem State.poke_plain (s : State) (b : Addr) (v : Byte) (c : Addr) : (s.poke b v).plain c = s.plain c := rfl

/-! ### record -/

@[simp] theorem State.record_a (s : State) (e : Access) : (s.record e).a = s.a := rfl
@[simp] theorem State.record_x (s : State) (e : Access) : (s.record e).x = s.x := rfl
@[simp] theorem State.record_y (s : State) (e : Access) : (s.record e).y = s.y := rfl
@[simp] theorem State.record_sp (s : State) (e : Access) : (s.record e).sp = s.sp := rfl
@[simp] theorem State.record_pc (s : State) (e : Access) : (s.record e).pc = s.pc := rfl
@[simp] theorem State.record_sr (s : State) (e : Access) : (s.record e).sr = s.sr := rfl
@[simp] theorem State.record_mem (s : State) (e : Access) : (s.record e).mem = s.mem := rfl
@[simp] theorem State.record_devices (s : State) (e : Access) : (s.record e).devices = s.devices := rfl
@[simp] theorem State.record_stepNo (s : State) (e : Access) : (s.record e).stepNo = s.stepNo := rfl
@[simp] theorem State.record_port (s : State) (e : Access) : (s.record e).port = s.port ++ [e] := rfl
@[simp] theorem State.record_plain (s : State) (e : Access) (c : Addr) : (s.record e).plain c = s.plain c := rfl
@[simp] theorem State.record_peek (s : State) (e : Access) (c : Addr) : (s.record e).peek c = s.peek c := rfl

/-! ### beginStep -/

@[simp] theorem State.beginStep_a (s : State) : (s.beginStep).a = s.a := rfl
@[simp] theorem State.beginStep_x (s : State) : (s.beginStep).x = s.x := rfl
@[simp] theorem State.beginStep_y (s : State) : (s.beginStep).y = s.y := rfl
@[simp] theorem State.beginStep_sp (s : State) : (s.beginStep).sp = s.sp := rfl
@[simp] theorem State.beginStep_pc (s : State) : (s.beginStep).pc = s.pc := rfl
@[simp] theorem State.beginStep_sr (s : State) : (s.beginStep).sr = s.sr := rfl
@[simp] theorem State.beginStep_mem (s : State) : (s.beginStep).mem = s.mem := rfl
@[simp] theorem State.beginStep_devices (s : State) : (s.beginStep).devices = s.devices := rfl
@[simp] theorem State.beginStep_stepNo (s : State) : (s.beginStep).stepNo = s.stepNo + 1 := rfl
@[simp] theorem State.beginStep_port (s : State) : (s.beginStep).port = [] := rfl
@[simp] theorem State.beginStep_plain (s : State) (c : Addr) : (s.beginStep).plain c = s.plain c := rfl
@[simp] theorem State.beginStep_peek (s : State) (c : Addr) : (s.beginStep).peek c = s.peek c := rfl

/-! ### The flags -/

@[simp] theorem Flags.withNZ_c (p : Flags) (v : Byte) : (p.withNZ v).c = p.c := rfl
@[simp] theorem Flags.withNZ_z (p : Flags) (v : Byte) : (p.withNZ v).z = decide (v = 0) := rfl
@[simp] theorem Flags.withNZ_i (p : Flags) (v : Byte) : (p.withNZ v).i = p.i := rfl
@[simp] theorem Flags.withNZ_d (p : Flags) (v : Byte) : (p.withNZ v).d = p.d := rfl
@[simp] theorem Flags.withNZ_b (p : Flags) (v : Byte) : (p.withNZ v).b = p.b := rfl
@[simp] theorem Flags.withNZ_v (p : Flags) (v : Byte) : (p.withNZ v).v = p.v := rfl
@[simp] theorem Flags.withNZ_n (p : Flags) (v : Byte) : (p.withNZ v).n = v.msb := rfl

end Sys2Proof.Machine
end

