-- ==== Sys2Proof/Laws/Ops.lean ====
section
/-! SUPPORT. What each shared operation over the memory port, the stack unit and the fetch can do, said once. -/
namespace Sys2Proof.Machine

theorem toNat_ne {a b : Addr} (h : a ≠ b) : a.toNat ≠ b.toNat := fun e => h (BitVec.eq_of_toNat_eq e)

/-- Memory after a poke, byte by byte. -/
theorem State.poke_peek (s : State) (a b : Addr) (v : Byte) : (s.poke a v).peek b = if b = a then v else s.peek b := by
  unfold State.poke State.peek
  simp only [Memory.get_set, BitVec.toNat_inj]

theorem State.poke_wf (s : State) (a : Addr) (v : Byte) (h : s.mem.wf = true) : (s.poke a v).mem.wf = true :=
  Memory.wf_set a.isLt h

/-- A read in `PlainRam` is answered with the byte memory holds (R66). -/
theorem State.answer_plain (s : State) (a : Addr) (h : s.plain a = true) : s.answer a = s.peek a := by
  simp [State.answer, h]

theorem State.memRead_fst (s : State) (a : Addr) : (s.memRead a).1 = s.answer a := rfl

/-- A read changes the port's record only. -/
theorem State.memRead_snd (s : State) (a : Addr) : (s.memRead a).2 = s.record (.read a (s.answer a)) := rfl

@[simp] theorem State.memRead_a (s : State) (b : Addr) : (s.memRead b).2.a = s.a := rfl
@[simp] theorem State.memRead_x (s : State) (b : Addr) : (s.memRead b).2.x = s.x := rfl
@[simp] theorem State.memRead_y (s : State) (b : Addr) : (s.memRead b).2.y = s.y := rfl
@[simp] theorem State.memRead_sp (s : State) (b : Addr) : (s.memRead b).2.sp = s.sp := rfl
@[simp] theorem State.memRead_pc (s : State) (b : Addr) : (s.memRead b).2.pc = s.pc := rfl
@[simp] theorem State.memRead_sr (s : State) (b : Addr) : (s.memRead b).2.sr = s.sr := rfl
@[simp] theorem State.memRead_mem (s : State) (b : Addr) : (s.memRead b).2.mem = s.mem := rfl
@[simp] theorem State.memRead_devices (s : State) (b : Addr) : (s.memRead b).2.devices = s.devices := rfl
@[simp] theorem State.memRead_stepNo (s : State) (b : Addr) : (s.memRead b).2.stepNo = s.stepNo := rfl
@[simp] theorem State.memRead_plain (s : State) (b : Addr) (c : Addr) : (s.memRead b).2.plain c = s.plain c := rfl
@[simp] theorem State.memRead_peek (s : State) (b : Addr) (c : Addr) : (s.memRead b).2.peek c = s.peek c := rfl

@[simp] theorem State.memRead_port (s : State) (b : Addr) : (s.memRead b).2.port = s.port ++ [.read b (s.answer b)] := rfl

/-- A write stores in `PlainRam` and nowhere else, and is noted on the port. -/
theorem State.memWrite_cases (s : State) (b : Addr) (v : Byte) :
    (s.plain b = true ∧ s.memWrite b v = (s.poke b v).record (.write b v)) ∨
    (s.plain b = false ∧ s.memWrite b v = s.record (.write b v)) := by
  cases h : s.plain b <;> simp [State.memWrite, h]

@[simp] theorem State.memWrite_a (s : State) (b : Addr) (v : Byte) : (s.memWrite b v).a = s.a := by
  rcases s.memWrite_cases b v with ⟨_, h⟩ | ⟨_, h⟩ <;> rw [h] <;> rfl
@[simp] theorem State.memWrite_x (s : State) (b : Addr) (v : Byte) : (s.memWrite b v).x = s.x := by
  rcases s.memWrite_cases b v with ⟨_, h⟩ | ⟨_, h⟩ <;> rw [h] <;> rfl
@[simp] theorem State.memWrite_y (s : State) (b : Addr) (v : Byte) : (s.memWrite b v).y = s.y := by
  rcases s.memWrite_cases b v with ⟨_, h⟩ | ⟨_, h⟩ <;> rw [h] <;> rfl
@[simp] theorem State.memWrite_sp (s : State) (b : Addr) (v : Byte) : (s.memWrite b v).sp = s.sp := by
  rcases s.memWrite_cases b v with ⟨_, h⟩ | ⟨_, h⟩ <;> rw [h] <;> rfl
@[simp] theorem State.memWrite_pc (s : State) (b : Addr) (v : Byte) : (s.memWrite b v).pc = s.pc := by
  rcases s.memWrite_cases b v with ⟨_, h⟩ | ⟨_, h⟩ <;> rw [h] <;> rfl
@[simp] theorem State.memWrite_sr (s : State) (b : Addr) (v : Byte) : (s.memWrite b v).sr = s.sr := by
  rcases s.memWrite_cases b v with ⟨_, h⟩ | ⟨_, h⟩ <;> rw [h] <;> rfl
@[simp] theorem State.memWrite_devices (s : State) (b : Addr) (v : Byte) : (s.memWrite b v).devices = s.devices := by
  rcases s.memWrite_cases b v with ⟨_, h⟩ | ⟨_, h⟩ <;> rw [h] <;> rfl
@[simp] theorem State.memWrite_stepNo (s : State) (b : Addr) (v : Byte) : (s.memWrite b v).stepNo = s.stepNo := by
  rcases s.memWrite_cases b v with ⟨_, h⟩ | ⟨_, h⟩ <;> rw [h] <;> rfl
@[simp] theorem State.memWrite_plain (s : State) (b : Addr) (v : Byte) (c : Addr) : (s.memWrite b v).plain c = s.plain c := by
  rcases s.memWrite_cases b v with ⟨_, h⟩ | ⟨_, h⟩ <;> rw [h] <;> rfl

@[simp] theorem State.memWrite_port (s : State) (b : Addr) (v : Byte) :
    (s.memWrite b v).port = s.port ++ [.write b v] := by
  rcases s.memWrite_cases b v with ⟨_, h⟩ | ⟨_, h⟩ <;> rw [h] <;> rfl

/-- Memory after a write, byte by byte. -/
theorem State.memWrite_peek (s : State) (b c : Addr) (v : Byte) :
    (s.memWrite b v).peek c = if c = b ∧ s.plain b = true then v else s.peek c := by
  rcases s.memWrite_cases b v with ⟨hp, h⟩ | ⟨hp, h⟩ <;> rw [h] <;> simp [hp, State.poke_peek]

theorem State.memWrite_peek_other (s : State) {b c : Addr} (v : Byte) (h : c ≠ b) :
    (s.memWrite b v).peek c = s.peek c := by
  simp [State.memWrite_peek, h]

theorem State.memWrite_wf (s : State) (b : Addr) (v : Byte) (h : s.mem.wf = true) : (s.memWrite b v).mem.wf = true := by
  rcases s.memWrite_cases b v with ⟨_, e⟩ | ⟨_, e⟩ <;> rw [e]
  · exact s.poke_wf b v h
  · exact h

/-! ### Word reads -/

@[simp] theorem State.read16_a (s : State) (lo hi : Addr) : (s.read16 lo hi).2.a = s.a := rfl
@[simp] theorem State.read16_x (s : State) (lo hi : Addr) : (s.read16 lo hi).2.x = s.x := rfl
@[simp] theorem State.read16_y (s : State) (lo hi : Addr) : (s.read16 lo hi).2.y = s.y := rfl
@[simp] theorem State.read16_sp (s : State) (lo hi : Addr) : (s.read16 lo hi).2.sp = s.sp := rfl
@[simp] theorem State.read16_pc (s : State) (lo hi : Addr) : (s.read16 lo hi).2.pc = s.pc := rfl
@[simp] theorem State.read16_sr (s : State) (lo hi : Addr) : (s.read16 lo hi).2.sr = s.sr := rfl
@[simp] theorem State.read16_mem (s : State) (lo hi : Addr) : (s.read16 lo hi).2.mem = s.mem := rfl
@[simp] theorem State.read16_devices (s : State) (lo hi : Addr) : (s.read16 lo hi).2.devices = s.devices := rfl
@[simp] theorem State.read16_stepNo (s : State) (lo hi : Addr) : (s.read16 lo hi).2.stepNo = s.stepNo := rfl
@[simp] theorem State.read16_plain (s : State) (lo hi : Addr) (c : Addr) : (s.read16 lo hi).2.plain c = s.plain c := rfl
@[simp] theorem State.read16_peek (s : State) (lo hi : Addr) (c : Addr) : (s.read16 lo hi).2.peek c = s.peek c := rfl

@[simp] theorem State.read16_port (s : State) (lo hi : Addr) :
    (s.read16 lo hi).2.port =
      s.port ++ [.read lo (s.answer lo), .read hi ((s.memRead lo).2.answer hi)] := by
  simp [State.read16, State.memRead_fst]

theorem State.read16_fst (s : State) (lo hi : Addr) :
    (s.read16 lo hi).1 = joinBytes ((s.memRead lo).2.answer hi) (s.answer lo) := rfl

/-! ### The stack unit -/

@[simp] theorem State.push_a (s : State) (v : Byte) : (s.push v).a = s.a := by
  simp [State.push]
@[simp] theorem State.push_x (s : State) (v : Byte) : (s.push v).x = s.x := by
  simp [State.push]
@[simp] theorem State.push_y (s : State) (v : Byte) : (s.push v).y = s.y := by
  simp [State.push]
@[simp] theorem State.push_pc (s : State) (v : Byte) : (s.push v).pc = s.pc := by
  simp [State.push]
@[simp] theorem State.push_sr (s : State) (v : Byte) : (s.push v).sr = s.sr := by
  simp [State.push]
@[simp] theorem State.push_devices (s : State) (v : Byte) : (s.push v).devices = s.devices := by
  simp [State.push]
@[simp] theorem State.push_stepNo (s : State) (v : Byte) : (s.push v).stepNo = s.stepNo := by
  simp [State.push]
@[simp] theorem State.push_plain (s : State) (v : Byte) (c : Addr) : (s.push v).plain c = s.plain c := by
  simp [State.push]

@[simp] theorem State.push_sp (s : State) (v : Byte) : (s.push v).sp = s.sp - 1 := by
  simp [State.push]

@[simp] theorem State.push_port (s : State) (v : Byte) : (s.push v).port = s.port ++ [.write (stackAddr s.sp) v] := by
  simp [State.push]

/-- Memory after a push, byte by byte. -/
theorem State.push_peek (s : State) (v : Byte) (c : Addr) :
    (s.push v).peek c = if c = stackAddr s.sp ∧ s.plain (stackAddr s.sp) = true then v else s.peek c := by
  simp [State.push, State.memWrite_peek]

theorem State.push_wf (s : State) (v : Byte) (h : s.mem.wf = true) : (s.push v).mem.wf = true := by
  simpa [State.push] using s.memWrite_wf (stackAddr s.sp) v h

@[simp] theorem State.pull_a (s : State) : (s.pull).2.a = s.a := rfl
@[simp] theorem State.pull_x (s : State) : (s.pull).2.x = s.x := rfl
@[simp] theorem State.pull_y (s : State) : (s.pull).2.y = s.y := rfl
@[simp] theorem State.pull_pc (s : State) : (s.pull).2.pc = s.pc := rfl
@[simp] theorem State.pull_sr (s : State) : (s.pull).2.sr = s.sr := rfl
@[simp] theorem State.pull_mem (s : State) : (s.pull).2.mem = s.mem := rfl
@[simp] theorem State.pull_devices (s : State) : (s.pull).2.devices = s.devices := rfl
@[simp] theorem State.pull_stepNo (s : State) : (s.pull).2.stepNo = s.stepNo := rfl
@[simp] theorem State.pull_plain (s : State) (c : Addr) : (s.pull).2.plain c = s.plain c := rfl
@[simp] theorem State.pull_peek (s : State) (c : Addr) : (s.pull).2.peek c = s.peek c := rfl

@[simp] theorem State.pull_sp (s : State) : s.pull.2.sp = s.sp + 1 := rfl

theorem State.pull_fst (s : State) : s.pull.1 = s.answer (stackAddr (s.sp + 1)) := rfl

@[simp] theorem State.pull_port (s : State) : s.pull.2.port = s.port ++ [.read (stackAddr (s.sp + 1)) s.pull.1] := rfl

@[simp] theorem State.push16_a (s : State) (v : Addr) : (s.push16 v).a = s.a := by
  simp [State.push16]
@[simp] theorem State.push16_x (s : State) (v : Addr) : (s.push16 v).x = s.x := by
  simp [State.push16]
@[simp] theorem State.push16_y (s : State) (v : Addr) : (s.push16 v).y = s.y := by
  simp [State.push16]
@[simp] theorem State.push16_pc (s : State) (v : Addr) : (s.push16 v).pc = s.pc := by
  simp [State.push16]
@[simp] theorem State.push16_sr (s : State) (v : Addr) : (s.push16 v).sr = s.sr := by
  simp [State.push16]
@[simp] theorem State.push16_devices (s : State) (v : Addr) : (s.push16 v).devices = s.devices := by
  simp [State.push16]
@[simp] theorem State.push16_stepNo (s : State) (v : Addr) : (s.push16 v).stepNo = s.stepNo := by
  simp [State.push16]
@[simp] theorem State.push16_plain (s : State) (v : Addr) (c : Addr) : (s.push16 v).plain c = s.plain c := by
  simp [State.push16]

@[simp] theorem State.push16_sp (s : State) (v : Addr) : (s.push16 v).sp = s.sp - 1 - 1 := by
  simp [State.push16]

@[simp] theorem State.push16_port (s : State) (v : Addr) : (s.push16 v).port =
    s.port ++ [.write (stackAddr s.sp) (hiByte v), .write (stackAddr (s.sp - 1)) (loByte v)] := by
  simp [State.push16]

theorem State.push16_wf (s : State) (v : Addr) (h : s.mem.wf = true) : (s.push16 v).mem.wf = true :=
  State.push_wf _ _ (State.push_wf _ _ h)

@[simp] theorem State.pull16_a (s : State) : (s.pull16).2.a = s.a := rfl
@[simp] theorem State.pull16_x (s : State) : (s.pull16).2.x = s.x := rfl
@[simp] theorem State.pull16_y (s : State) : (s.pull16).2.y = s.y := rfl
@[simp] theorem State.pull16_pc (s : State) : (s.pull16).2.pc = s.pc := rfl
@[simp] theorem State.pull16_sr (s : State) : (s.pull16).2.sr = s.sr := rfl
@[simp] theorem State.pull16_mem (s : State) : (s.pull16).2.mem = s.mem := rfl
@[simp] theorem State.pull16_devices (s : State) : (s.pull16).2.devices = s.devices := rfl
@[simp] theorem State.pull16_stepNo (s : State) : (s.pull16).2.stepNo = s.stepNo := rfl
@[simp] theorem State.pull16_plain (s : State) (c : Addr) : (s.pull16).2.plain c = s.plain c := rfl
@[simp] theorem State.pull16_peek (s : State) (c : Addr) : (s.pull16).2.peek c = s.peek c := rfl

@[simp] theorem State.pull16_sp (s : State) : s.pull16.2.sp = s.sp + 1 + 1 := rfl

theorem State.pull16_fst (s : State) : s.pull16.1 = joinBytes s.pull.2.pull.1 s.pull.1 := rfl

@[simp] theorem State.pull16_port (s : State) : s.pull16.2.port =
    s.port ++ [.read (stackAddr (s.sp + 1)) s.pull.1, .read (stackAddr (s.sp + 1 + 1)) s.pull.2.pull.1] := by
  simp [State.pull16]

/-! ### Fetch -/

@[simp] theorem State.fetch8_a (s : State) : (s.fetch8).2.a = s.a := rfl
@[simp] theorem State.fetch8_x (s : State) : (s.fetch8).2.x = s.x := rfl
@[simp] theorem State.fetch8_y (s : State) : (s.fetch8).2.y = s.y := rfl
@[simp] theorem State.fetch8_sp (s : State) : (s.fetch8).2.sp = s.sp := rfl
@[simp] theorem State.fetch8_sr (s : State) : (s.fetch8).2.sr = s.sr := rfl
@[simp] theorem State.fetch8_mem (s : State) : (s.fetch8).2.mem = s.mem := rfl
@[simp] theorem State.fetch8_devices (s : State) : (s.fetch8).2.devices = s.devices := rfl
@[simp] theorem State.fetch8_stepNo (s : State) : (s.fetch8).2.stepNo = s.stepNo := rfl
@[simp] theorem State.fetch8_plain (s : State) (c : Addr) : (s.fetch8).2.plain c = s.plain c := rfl
@[simp] theorem State.fetch8_peek (s : State) (c : Addr) : (s.fetch8).2.peek c = s.peek c := rfl

@[simp] theorem State.fetch8_pc (s : State) : s.fetch8.2.pc = s.pc + 1 := rfl

theorem State.fetch8_fst (s : State) : s.fetch8.1 = s.answer s.pc := rfl

@[simp] theorem State.fetch8_port (s : State) : s.fetch8.2.port = s.port ++ [.read s.pc (s.answer s.pc)] := rfl

/-- Fetching from `PlainRam` answers the byte memory holds (R66, R77). -/
theorem State.fetch8_of_plain (s : State) (h : s.plain s.pc = true) :
    s.fetch8 = (s.peek s.pc, { s with pc := s.pc + 1, port := s.port ++ [.read s.pc (s.peek s.pc)] }) := by
  simp only [State.fetch8, State.memRead, State.answer_plain s s.pc h]
  rfl

@[simp] theorem State.fetchOperands_a (s : State) (f : Format) : (s.fetchOperands f).2.a = s.a := by
  cases f <;> rfl
@[simp] theorem State.fetchOperands_x (s : State) (f : Format) : (s.fetchOperands f).2.x = s.x := by
  cases f <;> rfl
@[simp] theorem State.fetchOperands_y (s : State) (f : Format) : (s.fetchOperands f).2.y = s.y := by
  cases f <;> rfl
@[simp] theorem State.fetchOperands_sp (s : State) (f : Format) : (s.fetchOperands f).2.sp = s.sp := by
  cases f <;> rfl
@[simp] theorem State.fetchOperands_sr (s : State) (f : Format) : (s.fetchOperands f).2.sr = s.sr := by
  cases f <;> rfl
@[simp] theorem State.fetchOperands_mem (s : State) (f : Format) : (s.fetchOperands f).2.mem = s.mem := by
  cases f <;> rfl
@[simp] theorem State.fetchOperands_devices (s : State) (f : Format) : (s.fetchOperands f).2.devices = s.devices := by
  cases f <;> rfl
@[simp] theorem State.fetchOperands_stepNo (s : State) (f : Format) : (s.fetchOperands f).2.stepNo = s.stepNo := by
  cases f <;> rfl
@[simp] theorem State.fetchOperands_plain (s : State) (f : Format) (c : Addr) : (s.fetchOperands f).2.plain c = s.plain c := by
  cases f <;> rfl
@[simp] theorem State.fetchOperands_peek (s : State) (f : Format) (c : Addr) : (s.fetchOperands f).2.peek c = s.peek c := by
  cases f <;> rfl

/-- The operand fetch moves PC by the operand bytes of the format, the skipped signature byte included (R120). -/
theorem State.fetchOperands_pc (s : State) (f : Format) :
    (s.fetchOperands f).2.pc = s.pc + BitVec.ofNat 16 (formatLength f - 1) := by
  cases f <;> simp [State.fetchOperands, formatLength, BitVec.add_assoc]

@[simp] theorem State.fetchInstr_a (s : State) : (s.fetchInstr).2.a = s.a := by
  simp [State.fetchInstr]
@[simp] theorem State.fetchInstr_x (s : State) : (s.fetchInstr).2.x = s.x := by
  simp [State.fetchInstr]
@[simp] theorem State.fetchInstr_y (s : State) : (s.fetchInstr).2.y = s.y := by
  simp [State.fetchInstr]
@[simp] theorem State.fetchInstr_sp (s : State) : (s.fetchInstr).2.sp = s.sp := by
  simp [State.fetchInstr]
@[simp] theorem State.fetchInstr_sr (s : State) : (s.fetchInstr).2.sr = s.sr := by
  simp [State.fetchInstr]
@[simp] theorem State.fetchInstr_mem (s : State) : (s.fetchInstr).2.mem = s.mem := by
  simp [State.fetchInstr]
@[simp] theorem State.fetchInstr_devices (s : State) : (s.fetchInstr).2.devices = s.devices := by
  simp [State.fetchInstr]
@[simp] theorem State.fetchInstr_plain (s : State) (c : Addr) : (s.fetchInstr).2.plain c = s.plain c := by
  simp [State.fetchInstr]
@[simp] theorem State.fetchInstr_peek (s : State) (c : Addr) : (s.fetchInstr).2.peek c = s.peek c := by
  simp [State.fetchInstr]

@[simp] theorem State.fetchInstr_stepNo (s : State) : s.fetchInstr.2.stepNo = s.stepNo + 1 := by
  simp [State.fetchInstr]

end Sys2Proof.Machine
end

