-- ==== Sys2Proof/Laws/HostPort.lean ====
section
/-! SUPPORT. What the host's access to memory between steps does. -/
namespace Sys2Proof.Machine

theorem State.hostRead_plain (s : State) {a : Addr} (h : s.plain a = true) : s.hostRead a = s.peek a := by
  simp [State.hostRead, h]

/-- A host write is a write of the byte in `PlainRam`, and nothing outside it. -/
theorem State.hostWrite_cases (s : State) (a : Addr) (v : Byte) :
    (s.plain a = true ∧ s.hostWrite a v = s.poke a v) ∨ (s.plain a = false ∧ s.hostWrite a v = s) := by
  cases h : s.plain a <;> simp [State.hostWrite, h]

@[simp] theorem State.hostWrite_plain (s : State) (a c : Addr) (v : Byte) : (s.hostWrite a v).plain c = s.plain c := by
  obtain ⟨-, h⟩ | ⟨-, h⟩ := s.hostWrite_cases a v <;> rw [h]
  rfl

theorem State.hostWrite_peek (s : State) (a c : Addr) (v : Byte) :
    (s.hostWrite a v).peek c = if c = a ∧ s.plain a = true then v else s.peek c := by
  obtain ⟨hp, h⟩ | ⟨hp, h⟩ := s.hostWrite_cases a v <;> rw [h] <;> simp [hp, State.poke_peek]

theorem State.hostWrite_wf (s : State) (a : Addr) (v : Byte) (hs : s.mem.wf = true) : (s.hostWrite a v).mem.wf = true := by
  obtain ⟨-, h⟩ | ⟨-, h⟩ := s.hostWrite_cases a v <;> rw [h]
  · exact s.poke_wf a v hs
  · exact hs

end Sys2Proof.Machine
end

