-- ==== Sys2Proof/Laws/Operands.lean ====
section
/-! SUPPORT. What resolving, loading, storing and modifying an operand can do, said once. -/
namespace Sys2Proof.Machine

/-! ### Resolution and loading change the port's record only (R134) -/

@[simp] theorem State.resolve_a (s : State) (m : MemMode) : (s.resolve m).2.a = s.a := by
  cases m <;> simp [State.resolve]
@[simp] theorem State.resolve_x (s : State) (m : MemMode) : (s.resolve m).2.x = s.x := by
  cases m <;> simp [State.resolve]
@[simp] theorem State.resolve_y (s : State) (m : MemMode) : (s.resolve m).2.y = s.y := by
  cases m <;> simp [State.resolve]
@[simp] theorem State.resolve_sp (s : State) (m : MemMode) : (s.resolve m).2.sp = s.sp := by
  cases m <;> simp [State.resolve]
@[simp] theorem State.resolve_pc (s : State) (m : MemMode) : (s.resolve m).2.pc = s.pc := by
  cases m <;> simp [State.resolve]
@[simp] theorem State.resolve_sr (s : State) (m : MemMode) : (s.resolve m).2.sr = s.sr := by
  cases m <;> simp [State.resolve]
@[simp] theorem State.resolve_mem (s : State) (m : MemMode) : (s.resolve m).2.mem = s.mem := by
  cases m <;> simp [State.resolve]
@[simp] theorem State.resolve_devices (s : State) (m : MemMode) : (s.resolve m).2.devices = s.devices := by
  cases m <;> simp [State.resolve]
@[simp] theorem State.resolve_stepNo (s : State) (m : MemMode) : (s.resolve m).2.stepNo = s.stepNo := by
  cases m <;> simp [State.resolve]
@[simp] theorem State.resolve_plain (s : State) (m : MemMode) (c : Addr) : (s.resolve m).2.plain c = s.plain c := by
  cases m <;> simp [State.resolve]
@[simp] theorem State.resolve_peek (s : State) (m : MemMode) (c : Addr) : (s.resolve m).2.peek c = s.peek c := by
  cases m <;> simp [State.resolve]

@[simp] theorem State.resolveJump_a (s : State) (j : JumpMode) : (s.resolveJump j).2.a = s.a := by
  cases j <;> simp [State.resolveJump]
@[simp] theorem State.resolveJump_x (s : State) (j : JumpMode) : (s.resolveJump j).2.x = s.x := by
  cases j <;> simp [State.resolveJump]
@[simp] theorem State.resolveJump_y (s : State) (j : JumpMode) : (s.resolveJump j).2.y = s.y := by
  cases j <;> simp [State.resolveJump]
@[simp] theorem State.resolveJump_sp (s : State) (j : JumpMode) : (s.resolveJump j).2.sp = s.sp := by
  cases j <;> simp [State.resolveJump]
@[simp] theorem State.resolveJump_pc (s : State) (j : JumpMode) : (s.resolveJump j).2.pc = s.pc := by
  cases j <;> simp [State.resolveJump]
@[simp] theorem State.resolveJump_sr (s : State) (j : JumpMode) : (s.resolveJump j).2.sr = s.sr := by
  cases j <;> simp [State.resolveJump]
@[simp] theorem State.resolveJump_mem (s : State) (j : JumpMode) : (s.resolveJump j).2.mem = s.mem := by
  cases j <;> simp [State.resolveJump]
@[simp] theorem State.resolveJump_devices (s : State) (j : JumpMode) : (s.resolveJump j).2.devices = s.devices := by
  cases j <;> simp [State.resolveJump]
@[simp] theorem State.resolveJump_stepNo (s : State) (j : JumpMode) : (s.resolveJump j).2.stepNo = s.stepNo := by
  cases j <;> simp [State.resolveJump]
@[simp] theorem State.resolveJump_plain (s : State) (j : JumpMode) (c : Addr) : (s.resolveJump j).2.plain c = s.plain c := by
  cases j <;> simp [State.resolveJump]
@[simp] theorem State.resolveJump_peek (s : State) (j : JumpMode) (c : Addr) : (s.resolveJump j).2.peek c = s.peek c := by
  cases j <;> simp [State.resolveJump]

@[simp] theorem State.loadOperand_a (s : State) (o : Operand) : (s.loadOperand o).2.a = s.a := by
  cases o <;> simp [State.loadOperand]
@[simp] theorem State.loadOperand_x (s : State) (o : Operand) : (s.loadOperand o).2.x = s.x := by
  cases o <;> simp [State.loadOperand]
@[simp] theorem State.loadOperand_y (s : State) (o : Operand) : (s.loadOperand o).2.y = s.y := by
  cases o <;> simp [State.loadOperand]
@[simp] theorem State.loadOperand_sp (s : State) (o : Operand) : (s.loadOperand o).2.sp = s.sp := by
  cases o <;> simp [State.loadOperand]
@[simp] theorem State.loadOperand_pc (s : State) (o : Operand) : (s.loadOperand o).2.pc = s.pc := by
  cases o <;> simp [State.loadOperand]
@[simp] theorem State.loadOperand_sr (s : State) (o : Operand) : (s.loadOperand o).2.sr = s.sr := by
  cases o <;> simp [State.loadOperand]
@[simp] theorem State.loadOperand_mem (s : State) (o : Operand) : (s.loadOperand o).2.mem = s.mem := by
  cases o <;> simp [State.loadOperand]
@[simp] theorem State.loadOperand_devices (s : State) (o : Operand) : (s.loadOperand o).2.devices = s.devices := by
  cases o <;> simp [State.loadOperand]
@[simp] theorem State.loadOperand_stepNo (s : State) (o : Operand) : (s.loadOperand o).2.stepNo = s.stepNo := by
  cases o <;> simp [State.loadOperand]
@[simp] theorem State.loadOperand_plain (s : State) (o : Operand) (c : Addr) : (s.loadOperand o).2.plain c = s.plain c := by
  cases o <;> simp [State.loadOperand]
@[simp] theorem State.loadOperand_peek (s : State) (o : Operand) (c : Addr) : (s.loadOperand o).2.peek c = s.peek c := by
  cases o <;> simp [State.loadOperand]

/-! ### Stores -/

@[simp] theorem State.store_a (s : State) (m : MemMode) (v : Byte) : (s.store m v).a = s.a := by
  simp [State.store]
@[simp] theorem State.store_x (s : State) (m : MemMode) (v : Byte) : (s.store m v).x = s.x := by
  simp [State.store]
@[simp] theorem State.store_y (s : State) (m : MemMode) (v : Byte) : (s.store m v).y = s.y := by
  simp [State.store]
@[simp] theorem State.store_sp (s : State) (m : MemMode) (v : Byte) : (s.store m v).sp = s.sp := by
  simp [State.store]
@[simp] theorem State.store_pc (s : State) (m : MemMode) (v : Byte) : (s.store m v).pc = s.pc := by
  simp [State.store]
@[simp] theorem State.store_sr (s : State) (m : MemMode) (v : Byte) : (s.store m v).sr = s.sr := by
  simp [State.store]
@[simp] theorem State.store_devices (s : State) (m : MemMode) (v : Byte) : (s.store m v).devices = s.devices := by
  simp [State.store]
@[simp] theorem State.store_stepNo (s : State) (m : MemMode) (v : Byte) : (s.store m v).stepNo = s.stepNo := by
  simp [State.store]
@[simp] theorem State.store_plain (s : State) (m : MemMode) (v : Byte) (c : Addr) : (s.store m v).plain c = s.plain c := by
  simp [State.store]

/-- A store's accesses: the pointer reads of its mode, then one write (R121). -/
theorem State.store_port (s : State) (m : MemMode) (v : Byte) :
    (s.store m v).port = (s.resolve m).2.port ++ [.write (s.resolve m).1 v] := by
  simp [State.store]

/-- Memory after a store, byte by byte. -/
theorem State.store_peek (s : State) (m : MemMode) (v : Byte) (c : Addr) :
    (s.store m v).peek c = if c = (s.resolve m).1 ∧ s.plain (s.resolve m).1 = true then v else s.peek c := by
  simp [State.store, State.memWrite_peek]

theorem State.store_wf (s : State) (m : MemMode) (v : Byte) (h : s.mem.wf = true) : (s.store m v).mem.wf = true :=
  State.memWrite_wf _ _ _ (by simpa using h)

/-! ### Read-modify-write -/

@[simp] theorem State.modify_a (s : State) (m : MemMode) (f : Byte → Byte) : (s.modify m f).a = s.a := by
  simp [State.modify]
@[simp] theorem State.modify_x (s : State) (m : MemMode) (f : Byte → Byte) : (s.modify m f).x = s.x := by
  simp [State.modify]
@[simp] theorem State.modify_y (s : State) (m : MemMode) (f : Byte → Byte) : (s.modify m f).y = s.y := by
  simp [State.modify]
@[simp] theorem State.modify_sp (s : State) (m : MemMode) (f : Byte → Byte) : (s.modify m f).sp = s.sp := by
  simp [State.modify]
@[simp] theorem State.modify_pc (s : State) (m : MemMode) (f : Byte → Byte) : (s.modify m f).pc = s.pc := by
  simp [State.modify]
@[simp] theorem State.modify_devices (s : State) (m : MemMode) (f : Byte → Byte) : (s.modify m f).devices = s.devices := by
  simp [State.modify]
@[simp] theorem State.modify_stepNo (s : State) (m : MemMode) (f : Byte → Byte) : (s.modify m f).stepNo = s.stepNo := by
  simp [State.modify]
@[simp] theorem State.modify_plain (s : State) (m : MemMode) (f : Byte → Byte) (c : Addr) : (s.modify m f).plain c = s.plain c := by
  simp [State.modify]

/-- A read-modify-write's accesses: the pointer reads, one read, one write (R121). -/
theorem State.modify_port (s : State) (m : MemMode) (f : Byte → Byte) :
    (s.modify m f).port = (s.resolve m).2.port ++
      [.read (s.resolve m).1 ((s.resolve m).2.memRead (s.resolve m).1).1,
       .write (s.resolve m).1 (f ((s.resolve m).2.memRead (s.resolve m).1).1)] := by
  simp [State.modify, State.memRead_fst]

theorem State.modify_sr (s : State) (m : MemMode) (f : Byte → Byte) :
    (s.modify m f).sr = s.sr.withNZ (f ((s.resolve m).2.memRead (s.resolve m).1).1) := by
  simp [State.modify]

/-- Memory after a read-modify-write, byte by byte. -/
theorem State.modify_peek (s : State) (m : MemMode) (f : Byte → Byte) (c : Addr) :
    (s.modify m f).peek c = if c = (s.resolve m).1 ∧ s.plain (s.resolve m).1 = true then
      f ((s.resolve m).2.memRead (s.resolve m).1).1 else s.peek c := by
  simp [State.modify, State.memWrite_peek]

theorem State.modify_wf (s : State) (m : MemMode) (f : Byte → Byte) (h : s.mem.wf = true) :
    (s.modify m f).mem.wf = true := by
  simpa [State.modify] using State.memWrite_wf _ _ _ (by simpa using h)

/-! ### Shifts and rotates -/

@[simp] theorem State.shift_x (s : State) (t : Target) (f : Byte → Bool → Byte × Bool) : (s.shift t f).x = s.x := by
  cases t <;> simp [State.shift]
@[simp] theorem State.shift_y (s : State) (t : Target) (f : Byte → Bool → Byte × Bool) : (s.shift t f).y = s.y := by
  cases t <;> simp [State.shift]
@[simp] theorem State.shift_sp (s : State) (t : Target) (f : Byte → Bool → Byte × Bool) : (s.shift t f).sp = s.sp := by
  cases t <;> simp [State.shift]
@[simp] theorem State.shift_pc (s : State) (t : Target) (f : Byte → Bool → Byte × Bool) : (s.shift t f).pc = s.pc := by
  cases t <;> simp [State.shift]
@[simp] theorem State.shift_devices (s : State) (t : Target) (f : Byte → Bool → Byte × Bool) : (s.shift t f).devices = s.devices := by
  cases t <;> simp [State.shift]
@[simp] theorem State.shift_stepNo (s : State) (t : Target) (f : Byte → Bool → Byte × Bool) : (s.shift t f).stepNo = s.stepNo := by
  cases t <;> simp [State.shift]
@[simp] theorem State.shift_plain (s : State) (t : Target) (f : Byte → Bool → Byte × Bool) (c : Addr) : (s.shift t f).plain c = s.plain c := by
  cases t <;> simp [State.shift]

/-- On the accumulator a shift makes no access and changes A, C, N and Z only (R180). -/
theorem State.shift_acc (s : State) (f : Byte → Bool → Byte × Bool) :
    s.shift .acc f = (s.setA (f s.a s.sr.c).1).setSR
      { s.sr.withNZ (f s.a s.sr.c).1 with c := (f s.a s.sr.c).2 } := rfl

@[simp] theorem State.shift_mem_a (s : State) (m : MemMode) (f : Byte → Bool → Byte × Bool) :
    (s.shift (.mem m) f).a = s.a := by
  simp [State.shift]

theorem State.shift_mem_sr (s : State) (m : MemMode) (f : Byte → Bool → Byte × Bool) :
    (s.shift (.mem m) f).sr =
      { s.sr.withNZ (f ((s.resolve m).2.memRead (s.resolve m).1).1 s.sr.c).1 with
        c := (f ((s.resolve m).2.memRead (s.resolve m).1).1 s.sr.c).2 } := by
  simp [State.shift, Flags.withNZ]

/-- A memory shift's accesses: the pointer reads, one read, one write (R180). -/
theorem State.shift_mem_port (s : State) (m : MemMode) (f : Byte → Bool → Byte × Bool) :
    (s.shift (.mem m) f).port = (s.resolve m).2.port ++
      [.read (s.resolve m).1 ((s.resolve m).2.memRead (s.resolve m).1).1,
       .write (s.resolve m).1 (f ((s.resolve m).2.memRead (s.resolve m).1).1 s.sr.c).1] := by
  simp [State.shift, State.memRead_fst]

/-- Memory after a memory shift, byte by byte. -/
theorem State.shift_mem_peek (s : State) (m : MemMode) (f : Byte → Bool → Byte × Bool) (c : Addr) :
    (s.shift (.mem m) f).peek c = if c = (s.resolve m).1 ∧ s.plain (s.resolve m).1 = true then
      (f ((s.resolve m).2.memRead (s.resolve m).1).1 s.sr.c).1 else s.peek c := by
  simp [State.shift, State.memWrite_peek]

theorem State.shift_wf (s : State) (t : Target) (f : Byte → Bool → Byte × Bool) (h : s.mem.wf = true) :
    (s.shift t f).mem.wf = true := by
  cases t with
  | acc => exact h
  | mem m => simpa [State.shift] using State.memWrite_wf _ _ _ (by simpa using h)

/-! ### Logic, sums, compares and branches -/

@[simp] theorem State.logic_x (s : State) (o : Operand) (f : Byte → Byte → Byte) : (s.logic o f).x = s.x := by
  simp [State.logic]
@[simp] theorem State.logic_y (s : State) (o : Operand) (f : Byte → Byte → Byte) : (s.logic o f).y = s.y := by
  simp [State.logic]
@[simp] theorem State.logic_sp (s : State) (o : Operand) (f : Byte → Byte → Byte) : (s.logic o f).sp = s.sp := by
  simp [State.logic]
@[simp] theorem State.logic_pc (s : State) (o : Operand) (f : Byte → Byte → Byte) : (s.logic o f).pc = s.pc := by
  simp [State.logic]
@[simp] theorem State.logic_mem (s : State) (o : Operand) (f : Byte → Byte → Byte) : (s.logic o f).mem = s.mem := by
  simp [State.logic]
@[simp] theorem State.logic_devices (s : State) (o : Operand) (f : Byte → Byte → Byte) : (s.logic o f).devices = s.devices := by
  simp [State.logic]
@[simp] theorem State.logic_stepNo (s : State) (o : Operand) (f : Byte → Byte → Byte) : (s.logic o f).stepNo = s.stepNo := by
  simp [State.logic]
@[simp] theorem State.logic_plain (s : State) (o : Operand) (f : Byte → Byte → Byte) (c : Addr) : (s.logic o f).plain c = s.plain c := by
  simp [State.logic]
@[simp] theorem State.logic_peek (s : State) (o : Operand) (f : Byte → Byte → Byte) (c : Addr) : (s.logic o f).peek c = s.peek c := by
  simp [State.logic]

@[simp] theorem State.logic_a (s : State) (o : Operand) (f : Byte → Byte → Byte) :
    (s.logic o f).a = f s.a (s.loadOperand o).1 := by
  simp [State.logic]

@[simp] theorem State.logic_sr (s : State) (o : Operand) (f : Byte → Byte → Byte) :
    (s.logic o f).sr = s.sr.withNZ (f s.a (s.loadOperand o).1) := by
  simp [State.logic]

@[simp] theorem State.logic_port (s : State) (o : Operand) (f : Byte → Byte → Byte) :
    (s.logic o f).port = (s.loadOperand o).2.port := by
  simp [State.logic]

@[simp] theorem State.accumulate_x (s : State) (o : Operand) (f : Flags → Nat → Byte → Byte → SumResult) : (s.accumulate o f).x = s.x := by
  simp [State.accumulate]
@[simp] theorem State.accumulate_y (s : State) (o : Operand) (f : Flags → Nat → Byte → Byte → SumResult) : (s.accumulate o f).y = s.y := by
  simp [State.accumulate]
@[simp] theorem State.accumulate_sp (s : State) (o : Operand) (f : Flags → Nat → Byte → Byte → SumResult) : (s.accumulate o f).sp = s.sp := by
  simp [State.accumulate]
@[simp] theorem State.accumulate_pc (s : State) (o : Operand) (f : Flags → Nat → Byte → Byte → SumResult) : (s.accumulate o f).pc = s.pc := by
  simp [State.accumulate]
@[simp] theorem State.accumulate_mem (s : State) (o : Operand) (f : Flags → Nat → Byte → Byte → SumResult) : (s.accumulate o f).mem = s.mem := by
  simp [State.accumulate]
@[simp] theorem State.accumulate_devices (s : State) (o : Operand) (f : Flags → Nat → Byte → Byte → SumResult) : (s.accumulate o f).devices = s.devices := by
  simp [State.accumulate]
@[simp] theorem State.accumulate_stepNo (s : State) (o : Operand) (f : Flags → Nat → Byte → Byte → SumResult) : (s.accumulate o f).stepNo = s.stepNo := by
  simp [State.accumulate]
@[simp] theorem State.accumulate_plain (s : State) (o : Operand) (f : Flags → Nat → Byte → Byte → SumResult) (c : Addr) : (s.accumulate o f).plain c = s.plain c := by
  simp [State.accumulate]
@[simp] theorem State.accumulate_peek (s : State) (o : Operand) (f : Flags → Nat → Byte → Byte → SumResult) (c : Addr) : (s.accumulate o f).peek c = s.peek c := by
  simp [State.accumulate]

@[simp] theorem State.accumulate_a (s : State) (o : Operand) (f : Flags → Nat → Byte → Byte → SumResult) :
    (s.accumulate o f).a = (f s.sr s.stepNo s.a (s.loadOperand o).1).r := by
  simp [State.accumulate]

@[simp] theorem State.accumulate_sr (s : State) (o : Operand) (f : Flags → Nat → Byte → Byte → SumResult) :
    (s.accumulate o f).sr = s.sr.withSum (f s.sr s.stepNo s.a (s.loadOperand o).1) := by
  simp [State.accumulate]

@[simp] theorem State.accumulate_port (s : State) (o : Operand) (f : Flags → Nat → Byte → Byte → SumResult) :
    (s.accumulate o f).port = (s.loadOperand o).2.port := by
  simp [State.accumulate]

@[simp] theorem State.compareWith_a (s : State) (r : Byte) (o : Operand) : (s.compareWith r o).a = s.a := by
  simp [State.compareWith]
@[simp] theorem State.compareWith_x (s : State) (r : Byte) (o : Operand) : (s.compareWith r o).x = s.x := by
  simp [State.compareWith]
@[simp] theorem State.compareWith_y (s : State) (r : Byte) (o : Operand) : (s.compareWith r o).y = s.y := by
  simp [State.compareWith]
@[simp] theorem State.compareWith_sp (s : State) (r : Byte) (o : Operand) : (s.compareWith r o).sp = s.sp := by
  simp [State.compareWith]
@[simp] theorem State.compareWith_pc (s : State) (r : Byte) (o : Operand) : (s.compareWith r o).pc = s.pc := by
  simp [State.compareWith]
@[simp] theorem State.compareWith_mem (s : State) (r : Byte) (o : Operand) : (s.compareWith r o).mem = s.mem := by
  simp [State.compareWith]
@[simp] theorem State.compareWith_devices (s : State) (r : Byte) (o : Operand) : (s.compareWith r o).devices = s.devices := by
  simp [State.compareWith]
@[simp] theorem State.compareWith_stepNo (s : State) (r : Byte) (o : Operand) : (s.compareWith r o).stepNo = s.stepNo := by
  simp [State.compareWith]
@[simp] theorem State.compareWith_plain (s : State) (r : Byte) (o : Operand) (c : Addr) : (s.compareWith r o).plain c = s.plain c := by
  simp [State.compareWith]
@[simp] theorem State.compareWith_peek (s : State) (r : Byte) (o : Operand) (c : Addr) : (s.compareWith r o).peek c = s.peek c := by
  simp [State.compareWith]

@[simp] theorem State.compareWith_sr (s : State) (r : Byte) (o : Operand) :
    (s.compareWith r o).sr = s.sr.compare r (s.loadOperand o).1 := by
  simp [State.compareWith]

@[simp] theorem State.compareWith_port (s : State) (r : Byte) (o : Operand) :
    (s.compareWith r o).port = (s.loadOperand o).2.port := by
  simp [State.compareWith]

@[simp] theorem State.branchIf_a (s : State) (q : Bool) (d : Byte) : (s.branchIf q d).a = s.a := by
  cases q <;> rfl
@[simp] theorem State.branchIf_x (s : State) (q : Bool) (d : Byte) : (s.branchIf q d).x = s.x := by
  cases q <;> rfl
@[simp] theorem State.branchIf_y (s : State) (q : Bool) (d : Byte) : (s.branchIf q d).y = s.y := by
  cases q <;> rfl
@[simp] theorem State.branchIf_sp (s : State) (q : Bool) (d : Byte) : (s.branchIf q d).sp = s.sp := by
  cases q <;> rfl
@[simp] theorem State.branchIf_sr (s : State) (q : Bool) (d : Byte) : (s.branchIf q d).sr = s.sr := by
  cases q <;> rfl
@[simp] theorem State.branchIf_mem (s : State) (q : Bool) (d : Byte) : (s.branchIf q d).mem = s.mem := by
  cases q <;> rfl
@[simp] theorem State.branchIf_devices (s : State) (q : Bool) (d : Byte) : (s.branchIf q d).devices = s.devices := by
  cases q <;> rfl
@[simp] theorem State.branchIf_stepNo (s : State) (q : Bool) (d : Byte) : (s.branchIf q d).stepNo = s.stepNo := by
  cases q <;> rfl
@[simp] theorem State.branchIf_port (s : State) (q : Bool) (d : Byte) : (s.branchIf q d).port = s.port := by
  cases q <;> rfl
@[simp] theorem State.branchIf_plain (s : State) (q : Bool) (d : Byte) (c : Addr) : (s.branchIf q d).plain c = s.plain c := by
  cases q <;> rfl
@[simp] theorem State.branchIf_peek (s : State) (q : Bool) (d : Byte) (c : Addr) : (s.branchIf q d).peek c = s.peek c := by
  cases q <;> rfl

@[simp] theorem State.branchIf_pc (s : State) (q : Bool) (d : Byte) :
    (s.branchIf q d).pc = if q = true then s.pc + sext16 d else s.pc := by
  cases q <;> rfl

/-! ### Trap entry and return -/

@[simp] theorem State.trapEntry_a (s : State) : (s.trapEntry).a = s.a := by
  simp [State.trapEntry]
@[simp] theorem State.trapEntry_x (s : State) : (s.trapEntry).x = s.x := by
  simp [State.trapEntry]
@[simp] theorem State.trapEntry_y (s : State) : (s.trapEntry).y = s.y := by
  simp [State.trapEntry]
@[simp] theorem State.trapEntry_devices (s : State) : (s.trapEntry).devices = s.devices := by
  simp [State.trapEntry]
@[simp] theorem State.trapEntry_stepNo (s : State) : (s.trapEntry).stepNo = s.stepNo := by
  simp [State.trapEntry]
@[simp] theorem State.trapEntry_plain (s : State) (c : Addr) : (s.trapEntry).plain c = s.plain c := by
  simp [State.trapEntry]

@[simp] theorem State.trapEntry_sr (s : State) : s.trapEntry.sr = { s.sr with i := true } := by
  simp [State.trapEntry]

@[simp] theorem State.trapEntry_sp (s : State) : s.trapEntry.sp = s.sp - 1 - 1 - 1 := by
  simp [State.trapEntry]

theorem State.trapEntry_wf (s : State) (h : s.mem.wf = true) : s.trapEntry.mem.wf = true := by
  simpa [State.trapEntry] using State.push_wf _ _ (State.push16_wf _ _ h)

@[simp] theorem State.trapReturn_a (s : State) : (s.trapReturn).a = s.a := by
  simp [State.trapReturn]
@[simp] theorem State.trapReturn_x (s : State) : (s.trapReturn).x = s.x := by
  simp [State.trapReturn]
@[simp] theorem State.trapReturn_y (s : State) : (s.trapReturn).y = s.y := by
  simp [State.trapReturn]
@[simp] theorem State.trapReturn_mem (s : State) : (s.trapReturn).mem = s.mem := by
  simp [State.trapReturn]
@[simp] theorem State.trapReturn_devices (s : State) : (s.trapReturn).devices = s.devices := by
  simp [State.trapReturn]
@[simp] theorem State.trapReturn_stepNo (s : State) : (s.trapReturn).stepNo = s.stepNo := by
  simp [State.trapReturn]
@[simp] theorem State.trapReturn_plain (s : State) (c : Addr) : (s.trapReturn).plain c = s.plain c := by
  simp [State.trapReturn]
@[simp] theorem State.trapReturn_peek (s : State) (c : Addr) : (s.trapReturn).peek c = s.peek c := by
  simp [State.trapReturn]

@[simp] theorem State.trapReturn_sp (s : State) : s.trapReturn.sp = s.sp + 1 + 1 + 1 := by
  simp [State.trapReturn]

@[simp] theorem State.trapReturn_sr (s : State) : s.trapReturn.sr = Flags.installRti s.pull.1 := by
  simp [State.trapReturn]

end Sys2Proof.Machine
end

