-- ==== Sys2Proof/Laws/PerInstr.lean ====
section
/-! SUPPORT. Lemmas for all instructions, one per constructor of Instr. -/
namespace Sys2Proof.Laws.OperandByteCount

/-- An instruction has as many operand bytes as its format says (R91). -/
def Statement (i : Instr) : Prop := (instrOperandBytes i).length + 1 = formatLength i.format

theorem memModeBytes_length (m : MemMode) : (memModeBytes m).length + 1 = formatLength m.format := by
  cases m <;> rfl

theorem operandBytes_length (o : Operand) : (operandBytes o).length + 1 = formatLength o.format := by
  cases o with
  | imm b => rfl
  | mem m => exact memModeBytes_length m

theorem targetBytes_length (t : Target) : (targetBytes t).length + 1 = formatLength t.format := by
  cases t with
  | acc => rfl
  | mem m => exact memModeBytes_length m

theorem jumpModeBytes_length (j : JumpMode) : (jumpModeBytes j).length + 1 = formatLength j.format := by
  cases j <;> rfl

theorem ora (o : Operand) : Statement (.ora o) := operandBytes_length o
theorem and (o : Operand) : Statement (.and o) := operandBytes_length o
theorem eor (o : Operand) : Statement (.eor o) := operandBytes_length o
theorem adc (o : Operand) : Statement (.adc o) := operandBytes_length o
theorem sbc (o : Operand) : Statement (.sbc o) := operandBytes_length o
theorem asl (t : Target) : Statement (.asl t) := targetBytes_length t
theorem lsr (t : Target) : Statement (.lsr t) := targetBytes_length t
theorem rol (t : Target) : Statement (.rol t) := targetBytes_length t
theorem ror (t : Target) : Statement (.ror t) := targetBytes_length t
theorem cmp (o : Operand) : Statement (.cmp o) := operandBytes_length o
theorem cpx (o : Operand) : Statement (.cpx o) := operandBytes_length o
theorem cpy (o : Operand) : Statement (.cpy o) := operandBytes_length o
theorem inc (m : MemMode) : Statement (.inc m) := memModeBytes_length m
theorem dec (m : MemMode) : Statement (.dec m) := memModeBytes_length m
theorem inx : Statement (.inx) := rfl
theorem iny : Statement (.iny) := rfl
theorem dex : Statement (.dex) := rfl
theorem dey : Statement (.dey) := rfl
theorem bit (m : MemMode) : Statement (.bit m) := memModeBytes_length m
theorem pha : Statement (.pha) := rfl
theorem pla : Statement (.pla) := rfl
theorem php : Statement (.php) := rfl
theorem plp : Statement (.plp) := rfl
theorem brk : Statement (.brk) := rfl
theorem rti : Statement (.rti) := rfl
theorem jsr (w : Addr) : Statement (.jsr w) := rfl
theorem rts : Statement (.rts) := rfl
theorem jmp (j : JumpMode) : Statement (.jmp j) := jumpModeBytes_length j
theorem bpl (d : Byte) : Statement (.bpl d) := rfl
theorem bmi (d : Byte) : Statement (.bmi d) := rfl
theorem bvc (d : Byte) : Statement (.bvc d) := rfl
theorem bvs (d : Byte) : Statement (.bvs d) := rfl
theorem bcc (d : Byte) : Statement (.bcc d) := rfl
theorem bcs (d : Byte) : Statement (.bcs d) := rfl
theorem bne (d : Byte) : Statement (.bne d) := rfl
theorem beq (d : Byte) : Statement (.beq d) := rfl
theorem lda (o : Operand) : Statement (.lda o) := operandBytes_length o
theorem ldx (o : Operand) : Statement (.ldx o) := operandBytes_length o
theorem ldy (o : Operand) : Statement (.ldy o) := operandBytes_length o
theorem sta (m : MemMode) : Statement (.sta m) := memModeBytes_length m
theorem stx (m : MemMode) : Statement (.stx m) := memModeBytes_length m
theorem sty (m : MemMode) : Statement (.sty m) := memModeBytes_length m
theorem tax : Statement (.tax) := rfl
theorem tay : Statement (.tay) := rfl
theorem txa : Statement (.txa) := rfl
theorem tya : Statement (.tya) := rfl
theorem tsx : Statement (.tsx) := rfl
theorem txs : Statement (.txs) := rfl
theorem clc : Statement (.clc) := rfl
theorem sec : Statement (.sec) := rfl
theorem cli : Statement (.cli) := rfl
theorem sei : Statement (.sei) := rfl
theorem cld : Statement (.cld) := rfl
theorem sed : Statement (.sed) := rfl
theorem clv : Statement (.clv) := rfl
theorem nop : Statement (.nop) := rfl
theorem undef (op : Byte) : Statement (.undef op) := rfl

end Sys2Proof.Laws.OperandByteCount
end

