-- ==== Sys2Proof/Tests/Slice0.lean ====
section
/-! SUPPORT. The model's own tests: ill-formed terms, words decoded, single steps against spec/95_test_vectors.md (the name
ends in the vector's id), and a witness for the hypotheses of each statement that has some. -/
namespace Sys2Proof.Tests
open Sys2Proof.Machine Sys2Proof.Claims

/-! ### Helpers -/

/-- `s` with PC at `pc`, the cells placed in memory, and the bytes placed from `pc` on. -/
def boot (pc : Addr) (bytes : List Byte) (cells : List (Addr × Byte)) (s : State) : State :=
  (cells.foldl (fun (t : State) c => t.poke c.1 c.2) { s with pc := pc }).pokeBytes pc bytes

/-- The step from `s` completes in a state with the property. -/
def endsIn (s : State) (p : State → Bool) : Bool :=
  match step s with
  | .next t => p t
  | .fault _ => false
  | .refused _ => false

/-- A machine with a peripheral at 0xD000 to 0xD0FF. -/
def withDevice : State := State.create {} [] [⟨0xD000, 0x100⟩]

/-! ### Ill-formed terms: one for each check of `Instr.wf` -/

theorem test_wf_accumulator_modes : ¬WellFormed (.lda (.mem (.zpy 0x10))) ∧ ¬WellFormed (.ora (.mem (.zpy 0x10))) ∧
    ¬WellFormed (.and (.mem (.zpy 0x10))) ∧ ¬WellFormed (.eor (.mem (.zpy 0x10))) ∧ ¬WellFormed (.adc (.mem (.zpy 0x10))) ∧
    ¬WellFormed (.sbc (.mem (.zpy 0x10))) ∧ ¬WellFormed (.cmp (.mem (.zpy 0x10))) := by decide

theorem test_wf_shift_modes : ¬WellFormed (.asl (.mem (.izx 0x10))) ∧ ¬WellFormed (.lsr (.mem (.aby 0x1000))) ∧
    ¬WellFormed (.rol (.mem (.zpy 0x10))) ∧ ¬WellFormed (.ror (.mem (.izy 0x10))) := by decide

theorem test_wf_compare_index_modes : ¬WellFormed (.cpx (.mem (.zpx 0x10))) ∧ ¬WellFormed (.cpy (.mem (.abx 0x1000))) := by
  decide

theorem test_wf_incdec_bit_modes : ¬WellFormed (.inc (.aby 0x1000)) ∧ ¬WellFormed (.dec (.izx 0x10)) ∧
    ¬WellFormed (.bit (.zpx 0x10)) := by decide

theorem test_wf_load_store_modes : ¬WellFormed (.ldx (.mem (.zpx 0x10))) ∧ ¬WellFormed (.ldy (.mem (.zpy 0x10))) ∧
    ¬WellFormed (.sta (.zpy 0x10)) ∧ ¬WellFormed (.stx (.abx 0x1000)) ∧ ¬WellFormed (.sty (.abx 0x1000)) := by decide

theorem test_wf_undef : ¬WellFormed (.undef 0xEA) ∧ ¬WellFormed (.undef 0x00) ∧ WellFormed (.undef 0x02) := by decide

theorem test_memory_wf : Memory.wf [(2, 1), (1, 1)] = false ∧ Memory.wf [(1, 1), (1, 2)] = false ∧
    Memory.wf [(1, 0)] = false ∧ Memory.wf [(65536, 1)] = false ∧ Memory.wf [(0, 1), (65535, 2)] = true := by decide

/-! ### Decoding: a word of every instruction, its opcode written bit by bit from the rule's 'Encoding' line -/

theorem test_decode_logical :
    decode [0b00001001, 0x0F] = .ok (.ora (.imm 0x0F), []) ∧
    decode [0b00110101, 0x10] = .ok (.and (.mem (.zpx 0x10)), []) ∧
    decode [0b01010001, 0x20] = .ok (.eor (.mem (.izy 0x20)), []) := by
  decide

theorem test_decode_add_subtract :
    decode [0b01101101, 0x34, 0x12] = .ok (.adc (.mem (.abs 0x1234)), []) ∧
    decode [0b11100001, 0xFE] = .ok (.sbc (.mem (.izx 0xFE)), []) := by
  decide

theorem test_decode_shift_rotate :
    decode [0b00001010] = .ok (.asl .acc, []) ∧
    decode [0b01001110, 0x00, 0x20] = .ok (.lsr (.mem (.abs 0x2000)), []) ∧
    decode [0b00110110, 0x7F] = .ok (.rol (.mem (.zpx 0x7F)), []) ∧
    decode [0b01111110, 0x00, 0x10] = .ok (.ror (.mem (.abx 0x1000)), []) := by
  decide

theorem test_decode_compare_incdec_bit :
    decode [0b11011001, 0xF0, 0x12] = .ok (.cmp (.mem (.aby 0x12F0)), []) ∧
    decode [0b11100100, 0x20] = .ok (.cpx (.mem (.zp 0x20)), []) ∧
    decode [0b11000000, 0x80] = .ok (.cpy (.imm 0x80), []) ∧
    decode [0b11111110, 0x34, 0x12] = .ok (.inc (.abx 0x1234), []) ∧
    decode [0b11000110, 0x10] = .ok (.dec (.zp 0x10), []) ∧
    decode [0b11101000] = .ok (.inx, []) ∧
    decode [0b11001000] = .ok (.iny, []) ∧
    decode [0b11001010] = .ok (.dex, []) ∧
    decode [0b10001000] = .ok (.dey, []) ∧
    decode [0b00101100, 0x34, 0x12] = .ok (.bit (.abs 0x1234), []) := by
  decide

theorem test_decode_stack :
    decode [0b01001000] = .ok (.pha, []) ∧
    decode [0b01101000] = .ok (.pla, []) ∧
    decode [0b00001000] = .ok (.php, []) ∧
    decode [0b00101000] = .ok (.plp, []) := by
  decide

theorem test_decode_control_transfer :
    decode [0b00000000, 0xEE] = .ok (.brk, []) ∧
    decode [0b01000000] = .ok (.rti, []) ∧
    decode [0b00100000, 0x34, 0x12] = .ok (.jsr 0x1234, []) ∧
    decode [0b01100000] = .ok (.rts, []) ∧
    decode [0b01001100, 0x00, 0xC0] = .ok (.jmp (.abs 0xC000), []) ∧
    decode [0b01101100, 0xFF, 0x30] = .ok (.jmp (.ind 0x30FF), []) := by
  decide

theorem test_decode_branches :
    decode [0b00010000, 0xFD] = .ok (.bpl 0xFD, []) ∧
    decode [0b00110000, 0x10] = .ok (.bmi 0x10, []) ∧
    decode [0b01010000, 0x05] = .ok (.bvc 0x05, []) ∧
    decode [0b01110000, 0x00] = .ok (.bvs 0x00, []) ∧
    decode [0b10010000, 0x7F] = .ok (.bcc 0x7F, []) ∧
    decode [0b10110000, 0xFE] = .ok (.bcs 0xFE, []) ∧
    decode [0b11010000, 0x04] = .ok (.bne 0x04, []) ∧
    decode [0b11110000, 0x80] = .ok (.beq 0x80, []) := by
  decide

theorem test_decode_load_store :
    decode [0b10101001, 0x7F] = .ok (.lda (.imm 0x7F), []) ∧
    decode [0b10110110, 0xFF] = .ok (.ldx (.mem (.zpy 0xFF)), []) ∧
    decode [0b10111100, 0x10, 0x30] = .ok (.ldy (.mem (.abx 0x3010)), []) ∧
    decode [0b10010001, 0x10] = .ok (.sta (.izy 0x10), []) ∧
    decode [0b10010110, 0xFF] = .ok (.stx (.zpy 0xFF), []) ∧
    decode [0b10001100, 0x34, 0x12] = .ok (.sty (.abs 0x1234), []) := by
  decide

theorem test_decode_transfer :
    decode [0b10101010] = .ok (.tax, []) ∧
    decode [0b10101000] = .ok (.tay, []) ∧
    decode [0b10001010] = .ok (.txa, []) ∧
    decode [0b10011000] = .ok (.tya, []) ∧
    decode [0b10111010] = .ok (.tsx, []) ∧
    decode [0b10011010] = .ok (.txs, []) := by
  decide

theorem test_decode_flags_nop_undefined :
    decode [0b00011000] = .ok (.clc, []) ∧
    decode [0b00111000] = .ok (.sec, []) ∧
    decode [0b01011000] = .ok (.cli, []) ∧
    decode [0b01111000] = .ok (.sei, []) ∧
    decode [0b11011000] = .ok (.cld, []) ∧
    decode [0b11111000] = .ok (.sed, []) ∧
    decode [0b10111000] = .ok (.clv, []) ∧
    decode [0b11101010] = .ok (.nop, []) ∧
    decode [0b00000010] = .ok (.undef 0x02, []) ∧
    decode [0b11111111] = .ok (.undef 0xFF, []) := by
  decide

/-! ### The host's numbering of a table word -/

theorem test_table_word : decodeTableWord 24 0x1234AD = some (.lda (.mem (.abs 0x1234))) ∧
    decodeTableWord 16 0xFFFF80D0 = some (.bne 0x80) ∧ decodeTableWord 8 0xAD = some (.lda (.mem (.abs 0))) ∧
    decodeTableWord 8 0x02 = some (.undef 0x02) := by decide

theorem test_fetch_word : endsIn (State.reset.withFetchWord 16 0x80A9)
    (fun t => t.a = 0x80 ∧ t.sr.n = true ∧ t.pc = 2) = true := by decide

/-! ### Single steps -/

/-! #### Logical (41_logical.md) -/

theorem test_ora_L1 : endsIn (boot 0x0200 [0x09, 0x00] [] { State.reset with sr := Flags.ofByte 0x41 })
    (fun t => t.pc = 0x0202 ∧ t.hostStatus = 0x63) = true := by decide
theorem test_ora_L2 : endsIn (boot 0x0200 [0x09, 0x80] [] { State.reset with a := 0x01, sr := Flags.ofByte 0x02 })
    (fun t => t.pc = 0x0202 ∧ t.a = 0x81 ∧ t.hostStatus = 0xA0) = true := by decide
theorem test_and_L3 : endsIn (boot 0x0200 [0x29, 0x0F] [] { State.reset with a := 0xF0, sr := Flags.ofByte 0x80 })
    (fun t => t.pc = 0x0202 ∧ t.a = 0x00 ∧ t.hostStatus = 0x22) = true := by decide
theorem test_and_L4 : endsIn (boot 0x0200 [0x25, 0x10] [(0x0010, 0xFF)] { State.reset with a := 0x80 })
    (fun t => t.pc = 0x0202 ∧ t.hostStatus = 0xA0) = true := by decide
theorem test_eor_L5 : endsIn (boot 0x0200 [0x49, 0xFF] [] { State.reset with a := 0xFF })
    (fun t => t.pc = 0x0202 ∧ t.a = 0x00 ∧ t.hostStatus = 0x22) = true := by decide
theorem test_eor_L6 : endsIn (boot 0x0200 [0x51, 0x20] [(0x0020, 0x00), (0x0021, 0x30), (0x3002, 0xF0)] { State.reset with a := 0x0F, y := 0x02 })
    (fun t => t.pc = 0x0202 ∧ t.a = 0xFF ∧ t.hostStatus = 0xA0) = true := by decide

/-! #### Addition and subtraction (42_add_subtract.md); V is free in decimal mode and not looked at -/

theorem test_adc_AB7 : endsIn (boot 0x0200 [0x69, 0x90] [] { State.reset with a := 0xD0 })
    (fun t => t.pc = 0x0202 ∧ t.a = 0x60 ∧ t.hostStatus = 0x61) = true := by decide
theorem test_adc_AD1 : endsIn (boot 0x0200 [0x69, 0x01] [] { State.reset with a := 0x99, sr := Flags.ofByte 0x08 })
    (fun t => t.pc = 0x0202 ∧ t.a = 0x00 ∧ t.sr.c = true ∧ t.sr.z = true ∧ t.sr.n = false) = true := by decide
theorem test_sbc_AB13 : endsIn (boot 0x0200 [0xE9, 0xB0] [] { State.reset with a := 0x50, sr := Flags.ofByte 0x01 })
    (fun t => t.pc = 0x0202 ∧ t.a = 0xA0 ∧ t.hostStatus = 0xE0) = true := by decide
theorem test_sbc_AD6 : endsIn (boot 0x0200 [0xE9, 0x01] [] { State.reset with a := 0x00, sr := Flags.ofByte 0x09 })
    (fun t => t.pc = 0x0202 ∧ t.a = 0x99 ∧ t.sr.c = false ∧ t.sr.z = false ∧ t.sr.n = true) = true := by decide

/-! #### Shifts and rotates (43_shift_rotate.md) -/

theorem test_asl_S1 : endsIn (boot 0x0200 [0x0A] [] { State.reset with a := 0x80 })
    (fun t => t.pc = 0x0201 ∧ t.a = 0x00 ∧ t.hostStatus = 0x23) = true := by decide
theorem test_asl_S3 : endsIn (boot 0x0200 [0x16, 0xFF] [(0x0001, 0x01)] { State.reset with x := 0x02 })
    (fun t => t.pc = 0x0202 ∧ t.peek 0x0001 = 0x02 ∧ t.hostStatus = 0x20) = true := by decide
theorem test_lsr_S5 : endsIn (boot 0x0200 [0x4A] [] { State.reset with a := 0xFF, sr := Flags.ofByte 0x80 })
    (fun t => t.pc = 0x0201 ∧ t.a = 0x7F ∧ t.hostStatus = 0x21) = true := by decide
theorem test_lsr_S11 : endsIn (boot 0x0200 [0x4E, 0x00, 0x20] [(0x2000, 0x80)] State.reset)
    (fun t => t.pc = 0x0203 ∧ t.peek 0x2000 = 0x40 ∧ t.hostStatus = 0x20) = true := by decide
theorem test_rol_S6 : endsIn (boot 0x0200 [0x2A] [] { State.reset with a := 0x80 })
    (fun t => t.pc = 0x0201 ∧ t.a = 0x00 ∧ t.hostStatus = 0x23) = true := by decide
theorem test_rol_S7 : endsIn (boot 0x0200 [0x2A] [] { State.reset with a := 0x80, sr := Flags.ofByte 0x01 })
    (fun t => t.pc = 0x0201 ∧ t.a = 0x01 ∧ t.hostStatus = 0x21) = true := by decide
theorem test_ror_S8 : endsIn (boot 0x0200 [0x6A] [] { State.reset with a := 0x01 })
    (fun t => t.pc = 0x0201 ∧ t.a = 0x00 ∧ t.hostStatus = 0x23) = true := by decide
theorem test_ror_S10 : endsIn (boot 0x0200 [0x7E, 0x00, 0x10] [(0x1001, 0x03)] { State.reset with x := 0x01, sr := Flags.ofByte 0x01 })
    (fun t => t.pc = 0x0203 ∧ t.peek 0x1001 = 0x81 ∧ t.hostStatus = 0xA1) = true := by decide

/-! #### Compare, increment, decrement, BIT (44_compare_incdec_bit.md) -/

theorem test_cmp_K6 : endsIn (boot 0x0200 [0xC5, 0x10] [(0x0010, 0x80)] { State.reset with a := 0x7F, sr := Flags.ofByte 0x40 })
    (fun t => t.pc = 0x0202 ∧ t.hostStatus = 0xE0) = true := by decide
theorem test_cmp_K3 : endsIn (boot 0x0200 [0xC9, 0x00] [] { State.reset with a := 0xFF })
    (fun t => t.pc = 0x0202 ∧ t.hostStatus = 0xA1) = true := by decide
theorem test_cpx_K4 : endsIn (boot 0x0200 [0xE0, 0x00] [] { State.reset with x := 0x00 })
    (fun t => t.pc = 0x0202 ∧ t.hostStatus = 0x23) = true := by decide
theorem test_cpy_K5 : endsIn (boot 0x0200 [0xC4, 0x20] [(0x0020, 0x7F)] { State.reset with y := 0x80 })
    (fun t => t.pc = 0x0202 ∧ t.hostStatus = 0x21) = true := by decide
theorem test_inc_K7 : endsIn (boot 0x0200 [0xE6, 0x10] [(0x0010, 0xFF)] { State.reset with sr := Flags.ofByte 0x01 })
    (fun t => t.pc = 0x0202 ∧ t.peek 0x0010 = 0x00 ∧ t.hostStatus = 0x23) = true := by decide
theorem test_inc_K8 : endsIn (boot 0x0200 [0xF6, 0x10] [(0x0005, 0x7F)] { State.reset with x := 0xF5 })
    (fun t => t.pc = 0x0202 ∧ t.peek 0x0005 = 0x80 ∧ t.hostStatus = 0xA0) = true := by decide
theorem test_dec_K9 : endsIn (boot 0x0200 [0xC6, 0x10] [(0x0010, 0x01)] State.reset)
    (fun t => t.pc = 0x0202 ∧ t.peek 0x0010 = 0x00 ∧ t.hostStatus = 0x22) = true := by decide
theorem test_dec_K10 : endsIn (boot 0x0200 [0xDE, 0x34, 0x12] [(0x1235, 0x00)] { State.reset with x := 0x01 })
    (fun t => t.pc = 0x0203 ∧ t.peek 0x1235 = 0xFF ∧ t.hostStatus = 0xA0) = true := by decide
theorem test_inx_K11 : endsIn (boot 0x0200 [0xE8] [] { State.reset with x := 0xFF, sr := Flags.ofByte 0x41 })
    (fun t => t.pc = 0x0201 ∧ t.x = 0x00 ∧ t.hostStatus = 0x63) = true := by decide
theorem test_iny_K13 : endsIn (boot 0x0200 [0xC8] [] { State.reset with y := 0x7F })
    (fun t => t.pc = 0x0201 ∧ t.y = 0x80 ∧ t.hostStatus = 0xA0) = true := by decide
theorem test_dex_K12 : endsIn (boot 0x0200 [0xCA] [] { State.reset with x := 0x00 })
    (fun t => t.pc = 0x0201 ∧ t.x = 0xFF ∧ t.hostStatus = 0xA0) = true := by decide
theorem test_dey_K14 : endsIn (boot 0x0200 [0x88] [] { State.reset with y := 0x01, sr := Flags.ofByte 0x80 })
    (fun t => t.pc = 0x0201 ∧ t.y = 0x00 ∧ t.hostStatus = 0x22) = true := by decide
theorem test_bit_K15 : endsIn (boot 0x0200 [0x24, 0x20] [(0x0020, 0x00)] { State.reset with a := 0xFF, sr := Flags.ofByte 0xC0 })
    (fun t => t.pc = 0x0202 ∧ t.hostStatus = 0x22) = true := by decide
theorem test_bit_K16 : endsIn (boot 0x0200 [0x2C, 0x34, 0x12] [(0x1234, 0xC0)] { State.reset with a := 0x00 })
    (fun t => t.pc = 0x0203 ∧ t.hostStatus = 0xE2) = true := by decide

/-! #### Stack (45_stack.md) -/

theorem test_pha_T1 : endsIn (boot 0x0200 [0x48] [] { State.reset with a := 0x11, sp := 0x00 })
    (fun t => t.pc = 0x0201 ∧ t.sp = 0xFF ∧ t.peek 0x0100 = 0x11 ∧ t.hostStatus = 0x20) = true := by decide
theorem test_pla_T2 : endsIn (boot 0x0200 [0x68] [(0x0100, 0x00)] { State.reset with a := 0x55, sp := 0xFF })
    (fun t => t.pc = 0x0201 ∧ t.a = 0x00 ∧ t.sp = 0x00 ∧ t.hostStatus = 0x22) = true := by decide
theorem test_pla_T8 : endsIn (boot 0x0200 [0x68] [(0x0111, 0x7F)] { State.reset with sp := 0x10, sr := Flags.ofByte 0x02 })
    (fun t => t.pc = 0x0201 ∧ t.a = 0x7F ∧ t.sp = 0x11 ∧ t.hostStatus = 0x20) = true := by decide
theorem test_php_T4 : endsIn (boot 0x0200 [0x08] [] { State.reset with sp := 0xFF, sr := Flags.ofByte 0x0C })
    (fun t => t.pc = 0x0201 ∧ t.sp = 0xFE ∧ t.peek 0x01FF = 0x3C ∧ t.hostStatus = 0x2C) = true := by decide
theorem test_php_T5 : endsIn (boot 0x0200 [0x08] [] { State.reset with sp := 0xFF, sr := Flags.ofByte 0x50 })
    (fun t => t.pc = 0x0201 ∧ t.sp = 0xFE ∧ t.peek 0x01FF = 0x70 ∧ t.hostStatus = 0x70) = true := by decide
theorem test_plp_T6 : endsIn (boot 0x0200 [0x28] [(0x01FF, 0xFF)] { State.reset with sp := 0xFE })
    (fun t => t.pc = 0x0201 ∧ t.sp = 0xFF ∧ t.hostStatus = 0xEF) = true := by decide
theorem test_plp_T7 : endsIn (boot 0x0200 [0x28] [(0x01FF, 0x20)] { State.reset with sp := 0xFE, sr := Flags.ofByte 0x11 })
    (fun t => t.pc = 0x0201 ∧ t.sp = 0xFF ∧ t.hostStatus = 0x20) = true := by decide

/-! #### Control transfer (46_control_transfer.md); C19 and C20 start at 0x02F8 and 0x0000, where their end values follow from R133 -/

theorem test_brk_C1 : endsIn (boot 0x0200 [0x00, 0xEE] [(0xFFFE, 0x00), (0xFFFF, 0x80)] { State.reset with sp := 0xFF, sr := Flags.ofByte 0x81 })
    (fun t => t.pc = 0x8000 ∧ t.sp = 0xFC ∧ t.peek 0x01FD = 0xB1 ∧ t.peek 0x01FE = 0x02 ∧ t.peek 0x01FF = 0x02 ∧ t.hostStatus = 0xA5) = true := by decide
theorem test_brk_C2 : endsIn (boot 0x0200 [0x00, 0xEE] [(0xFFFE, 0x34), (0xFFFF, 0x12)] { State.reset with sp := 0x01, sr := Flags.ofByte 0x0C })
    (fun t => t.pc = 0x1234 ∧ t.sp = 0xFE ∧ t.peek 0x0100 = 0x02 ∧ t.peek 0x0101 = 0x02 ∧ t.peek 0x01FF = 0x3C ∧ t.hostStatus = 0x2C) = true := by decide
theorem test_rti_C4 : endsIn (boot 0x0200 [0x40] [(0x01FD, 0xFF), (0x01FE, 0x34), (0x01FF, 0x12)] { State.reset with sp := 0xFC })
    (fun t => t.pc = 0x1234 ∧ t.sp = 0xFF ∧ t.hostStatus = 0xFF) = true := by decide
theorem test_rti_C6 : endsIn (boot 0x0200 [0x40] [(0x0100, 0x78), (0x0101, 0x56), (0x01FF, 0x24)] { State.reset with sp := 0xFE })
    (fun t => t.pc = 0x5678 ∧ t.sp = 0x01 ∧ t.hostStatus = 0x24) = true := by decide
theorem test_jsr_C8 : endsIn (boot 0xFFFD [0x20, 0x00, 0x03] [] { State.reset with sp := 0xFF })
    (fun t => t.pc = 0x0300 ∧ t.sp = 0xFD ∧ t.peek 0x01FE = 0xFF ∧ t.peek 0x01FF = 0xFF ∧ t.hostStatus = 0x20) = true := by decide
theorem test_jsr_C9 : endsIn (boot 0x0200 [0x20, 0x00, 0x40] [] { State.reset with sp := 0x00 })
    (fun t => t.pc = 0x4000 ∧ t.sp = 0xFE ∧ t.peek 0x0100 = 0x02 ∧ t.peek 0x01FF = 0x02 ∧ t.hostStatus = 0x20) = true := by decide
theorem test_rts_C10 : endsIn (boot 0x0200 [0x60] [(0x01FE, 0x02), (0x01FF, 0x06)] { State.reset with sp := 0xFD })
    (fun t => t.pc = 0x0603 ∧ t.sp = 0xFF ∧ t.hostStatus = 0x20) = true := by decide
theorem test_rts_C11 : endsIn (boot 0x0200 [0x60] [(0x01FE, 0xFF), (0x01FF, 0xFF)] { State.reset with sp := 0xFD })
    (fun t => t.pc = 0x0000 ∧ t.sp = 0xFF ∧ t.hostStatus = 0x20) = true := by decide
theorem test_jmp_C13 : endsIn (boot 0x0200 [0x6C, 0xFF, 0x30] [(0x3000, 0x40), (0x30FF, 0x00), (0x3100, 0x50)] State.reset)
    (fun t => t.pc = 0x4000 ∧ t.hostStatus = 0x20) = true := by decide
theorem test_jmp_AM12 : endsIn (boot 0x0200 [0x6C, 0xFF, 0xFF] [(0x0000, 0x56), (0xFF00, 0x12), (0xFFFF, 0x34)] State.reset)
    (fun t => t.pc = 0x1234 ∧ t.hostStatus = 0x20) = true := by decide
theorem test_bpl_C20 : endsIn (boot 0x0000 [0x10, 0xFD] [] State.reset)
    (fun t => t.pc = 0xFFFF ∧ t.hostStatus = 0x20) = true := by decide
theorem test_bmi_C19 : endsIn (boot 0x02F8 [0x30, 0x10] [] { State.reset with sr := Flags.ofByte 0x80 })
    (fun t => t.pc = 0x030A ∧ t.hostStatus = 0xA0) = true := by decide
theorem test_bvc_C22 : endsIn (boot 0x0200 [0x50, 0x05] [] { State.reset with sr := Flags.ofByte 0x40 })
    (fun t => t.pc = 0x0202 ∧ t.hostStatus = 0x60) = true := by decide
theorem test_bvs_C21 : endsIn (boot 0x0200 [0x70, 0x00] [] { State.reset with sr := Flags.ofByte 0x40 })
    (fun t => t.pc = 0x0202 ∧ t.hostStatus = 0x60) = true := by decide
theorem test_bcc_C17 : endsIn (boot 0x0200 [0x90, 0x7F] [] State.reset)
    (fun t => t.pc = 0x0281 ∧ t.hostStatus = 0x20) = true := by decide
theorem test_bcs_C18 : endsIn (boot 0x0200 [0xB0, 0xFE] [] { State.reset with sr := Flags.ofByte 0x01 })
    (fun t => t.pc = 0x0200 ∧ t.hostStatus = 0x21) = true := by decide
theorem test_bne_C14 : endsIn (boot 0x0200 [0xD0, 0x04] [] State.reset)
    (fun t => t.pc = 0x0206 ∧ t.hostStatus = 0x20) = true := by decide
theorem test_bne_C15 : endsIn (boot 0x0200 [0xD0, 0x04] [] { State.reset with sr := Flags.ofByte 0x02 })
    (fun t => t.pc = 0x0202 ∧ t.hostStatus = 0x22) = true := by decide
theorem test_beq_C16 : endsIn (boot 0x0200 [0xF0, 0x80] [] { State.reset with sr := Flags.ofByte 0x02 })
    (fun t => t.pc = 0x0182 ∧ t.hostStatus = 0x22) = true := by decide

/-! #### Loads, stores, transfers (47_load_store_transfer.md) -/

theorem test_lda_AM8 : endsIn (boot 0x0200 [0xA1, 0xFE] [(0x0000, 0x30), (0x00FF, 0x00), (0x3000, 0x66)] { State.reset with x := 0x01 })
    (fun t => t.pc = 0x0202 ∧ t.a = 0x66 ∧ t.hostStatus = 0x20) = true := by decide
theorem test_lda_AM10 : endsIn (boot 0x0200 [0xB1, 0x40] [(0x0000, 0x88), (0x0040, 0xFF), (0x0041, 0xFF)] { State.reset with y := 0x01 })
    (fun t => t.pc = 0x0202 ∧ t.a = 0x88 ∧ t.hostStatus = 0xA0) = true := by decide
theorem test_ldx_AM4 : endsIn (boot 0x0200 [0xB6, 0xFF] [(0x0000, 0x9C)] { State.reset with y := 0x01 })
    (fun t => t.pc = 0x0202 ∧ t.x = 0x9C ∧ t.hostStatus = 0xA0) = true := by decide
theorem test_ldx_M6 : endsIn (boot 0x0200 [0xBE, 0xF0, 0x12] [(0x1300, 0x42)] { State.reset with y := 0x10 })
    (fun t => t.pc = 0x0203 ∧ t.x = 0x42 ∧ t.hostStatus = 0x20) = true := by decide
theorem test_ldy_M4 : endsIn (boot 0x0200 [0xA4, 0x10] [(0x0010, 0xFF)] State.reset)
    (fun t => t.pc = 0x0202 ∧ t.y = 0xFF ∧ t.hostStatus = 0xA0) = true := by decide
theorem test_ldy_M5 : endsIn (boot 0x0200 [0xB4, 0xFF] [(0x0000, 0x01)] { State.reset with x := 0x01 })
    (fun t => t.pc = 0x0202 ∧ t.y = 0x01 ∧ t.hostStatus = 0x20) = true := by decide
theorem test_sta_M8 : endsIn (boot 0x0200 [0x91, 0x10] [(0x0010, 0xFE), (0x0011, 0x20)] { State.reset with a := 0xAB, y := 0x04 })
    (fun t => t.pc = 0x0202 ∧ t.peek 0x2102 = 0xAB ∧ t.hostStatus = 0x20) = true := by decide
theorem test_sta_M9 : endsIn (boot 0x0200 [0x81, 0xFF] [(0x0000, 0x04), (0x00FF, 0x00)] { State.reset with a := 0xCD, x := 0x00 })
    (fun t => t.pc = 0x0202 ∧ t.peek 0x0400 = 0xCD ∧ t.hostStatus = 0x20) = true := by decide
theorem test_stx_M10 : endsIn (boot 0x0200 [0x96, 0xFF] [] { State.reset with x := 0x99, y := 0x02 })
    (fun t => t.pc = 0x0202 ∧ t.peek 0x0001 = 0x99 ∧ t.hostStatus = 0x20) = true := by decide
theorem test_sty_M11 : endsIn (boot 0x0200 [0x8C, 0x34, 0x12] [] { State.reset with y := 0x80, sr := Flags.ofByte 0x02 })
    (fun t => t.pc = 0x0203 ∧ t.peek 0x1234 = 0x80 ∧ t.hostStatus = 0x22) = true := by decide
theorem test_tax_M12 : endsIn (boot 0x0200 [0xAA] [] { State.reset with x := 0x55 })
    (fun t => t.pc = 0x0201 ∧ t.x = 0x00 ∧ t.hostStatus = 0x22) = true := by decide
theorem test_tay_M13 : endsIn (boot 0x0200 [0xA8] [] { State.reset with a := 0x80 })
    (fun t => t.pc = 0x0201 ∧ t.y = 0x80 ∧ t.hostStatus = 0xA0) = true := by decide
theorem test_txa_M14 : endsIn (boot 0x0200 [0x8A] [] { State.reset with a := 0x80, x := 0x00 })
    (fun t => t.pc = 0x0201 ∧ t.a = 0x00 ∧ t.hostStatus = 0x22) = true := by decide
theorem test_tya_M15 : endsIn (boot 0x0200 [0x98] [] { State.reset with y := 0x7F, sr := Flags.ofByte 0x02 })
    (fun t => t.pc = 0x0201 ∧ t.a = 0x7F ∧ t.hostStatus = 0x20) = true := by decide
theorem test_tsx_M16 : endsIn (boot 0x0200 [0xBA] [] { State.reset with sp := 0x00, x := 0x10 })
    (fun t => t.pc = 0x0201 ∧ t.x = 0x00 ∧ t.hostStatus = 0x22) = true := by decide
theorem test_txs_M17 : endsIn (boot 0x0200 [0x9A] [] { State.reset with x := 0x00, sp := 0xFF, sr := Flags.ofByte 0x80 })
    (fun t => t.pc = 0x0201 ∧ t.sp = 0x00 ∧ t.hostStatus = 0xA0) = true := by decide

/-! #### Flags, NOP, undefined opcodes (48_flags_nop_undefined.md) -/

theorem test_clc_F1 : endsIn (boot 0x0200 [0x18] [] { State.reset with sr := Flags.ofByte 0x01 })
    (fun t => t.pc = 0x0201 ∧ t.hostStatus = 0x20) = true := by decide
theorem test_sec_F2 : endsIn (boot 0x0200 [0x38] [] State.reset)
    (fun t => t.pc = 0x0201 ∧ t.hostStatus = 0x21) = true := by decide
theorem test_cli_F3 : endsIn (boot 0x0200 [0x58] [] { State.reset with sr := Flags.ofByte 0x04 })
    (fun t => t.pc = 0x0201 ∧ t.hostStatus = 0x20) = true := by decide
theorem test_sei_F4 : endsIn (boot 0x0200 [0x78] [] State.reset)
    (fun t => t.pc = 0x0201 ∧ t.hostStatus = 0x24) = true := by decide
theorem test_cld_F5 : endsIn (boot 0x0200 [0xD8] [] { State.reset with sr := Flags.ofByte 0x08 })
    (fun t => t.pc = 0x0201 ∧ t.hostStatus = 0x20) = true := by decide
theorem test_sed_F6 : endsIn (boot 0x0200 [0xF8] [] State.reset)
    (fun t => t.pc = 0x0201 ∧ t.hostStatus = 0x28) = true := by decide
theorem test_clv_F7 : endsIn (boot 0x0200 [0xB8] [] { State.reset with sr := Flags.ofByte 0x40 })
    (fun t => t.pc = 0x0201 ∧ t.hostStatus = 0x20) = true := by decide
theorem test_nop_F8 : endsIn (boot 0x0200 [0xEA] [] { State.reset with a := 0x12, sr := Flags.ofByte 0x01 })
    (fun t => t.pc = 0x0201 ∧ t.hostStatus = 0x21) = true := by decide
theorem test_undef_F9 : endsIn (boot 0x0200 [0x02, 0xA9] [] State.reset)
    (fun t => t.pc = 0x0201 ∧ t.hostStatus = 0x20) = true := by decide
theorem test_undef_F13 : endsIn (boot 0xFFFF [0xFF] [] State.reset)
    (fun t => t.pc = 0x0000 ∧ t.hostStatus = 0x20) = true := by decide

/-! ### Witnesses: the hypotheses of each statement can be met -/

theorem witness_StatusBitFiveIsNotStored : (0xDF : Byte) ||| 0x20 = 0xFF ||| 0x20 := by decide

theorem witness_plain_and_not : withDevice.plain 0xCFFF = true ∧ withDevice.plain 0xD000 = false ∧
    withDevice.plain 0xD0FF = false ∧ withDevice.plain 0xD100 = true ∧ (0xD000 : Addr) ≠ 0xCFFF := by decide

theorem witness_StepKeepsMemoryCanonical : Inv (boot 0x0200 [0x85, 0x10] [(0x0010, 0x01)] State.reset) ∧
    endsIn (boot 0x0200 [0x85, 0x10] [(0x0010, 0x01)] State.reset) (fun t => t.peek 0x0010 = 0x00) = true := by decide

theorem witness_StepStoresOnlyInPlainRam :
    endsIn (boot 0x0200 [0x8D, 0x00, 0xD0] [] { withDevice with a := 0x55 })
      (fun t => t.peek 0xD000 = 0x00 ∧ t.plain 0xD000 = false ∧ t.port.length = 4) = true := by decide

theorem witness_ByteWidenings_bounds : zext16 0x7F = 0x007F ∧ sext16 0x7F = 0x007F ∧ zext16 0x80 = 0x0080 ∧
    sext16 0x80 = 0xFF80 := by decide

theorem witness_DecodeOfEncode : WellFormed (.sta (.abx 0xFFFF)) ∧ WellFormed .brk ∧ WellFormed (.undef 0xFF) := by decide

theorem witness_EncodeOfDecode : decode [0x00, 0xEE, 0x01] = .ok (.brk, [0x01]) ∧
    decode [0xA9, 0xFF] = .ok (.lda (.imm 0xFF), []) ∧ (Instr.lda (.imm 0xFF)) ≠ .brk := by decide

theorem witness_UndefinedOpcodesDecode : (0x02 : Byte) ∈ undefinedOpcodes ∧ (0xFF : Byte) ∈ undefinedOpcodes ∧
    (0x00 : Byte) ∉ undefinedOpcodes ∧ (0xEA : Byte) ∉ undefinedOpcodes := by decide

/-- An instruction that straddles the top of memory: vector AM13. -/
def straddling : State := boot 0xFFFE [0xAD, 0x01, 0x00] [] State.reset

theorem witness_StepRunsDecodedInstruction :
    decode [straddling.peek straddling.pc, straddling.peek (straddling.pc + 1), straddling.peek (straddling.pc + 2)] =
      .ok (.lda (.mem (.abs 0x0001)), []) ∧
    ∀ k < fetchedBytes (.lda (.mem (.abs 0x0001))), straddling.plain (straddling.pc + BitVec.ofNat 16 k) = true :=
  ⟨by decide, fun _ _ => rfl⟩

theorem witness_StepAccessesAreBounded : straddling.plain straddling.pc = true ∧
    endsIn straddling (fun t => t.port.length = 4) = true := by decide

/-- Vector M18 after its fetch, moved so that the store meets the next opcode. -/
theorem witness_FetchSeesEarlierStore :
    (({ State.reset with a := 0x77, x := 0x01, pc := 0x0200 } : State).resolve (.abx 0x01FF)).1 = 0x0200 ∧
    ({ State.reset with a := 0x77, x := 0x01, pc := 0x0200 } : State).plain 0x0200 = true := by decide

theorem witness_RunEndsAtStopAddress :
    (runUntil 0x0202 5 (boot 0x0200 [0xEA, 0xEA] [] State.reset)).map (fun r => (r.1, r.2.pc)) = some (2, 0x0202) ∧
    (runUntil 0x0200 0 (boot 0x0200 [] [] State.reset)).map (fun r => (r.1, r.2.pc)) = some (0, 0x0200) := by decide

theorem witness_RunEndsAtFirstReach :
    (match core.run 2 (boot 0x0200 [0xEA, 0xEA] [] State.reset) with
      | .next u => decide (State.pc u = 0x0202)
      | .fault _ => false
      | .refused _ => false) = true ∧ 2 ≤ 5 := by decide

theorem witness_decimal_operands : (Packed 0x99 ∧ Packed 0x00) ∧ ¬(Packed 0x9A ∧ Packed 0x00) ∧
    ¬(Packed 0x99 ∧ Packed 0xA0) := by unfold Packed; decide

theorem witness_decimal_flag : State.reset.sr.d = false ∧ (State.create { d := true } [] []).sr.d = true := by decide

theorem witness_PlainStack : PlainStack State.reset := fun _ => rfl

theorem witness_stack_on_a_device : (State.create { sp := 0xFF } [] [⟨0x1FF, 1⟩]).plain (stackAddr 0xFF) = false ∧
    (State.create { sp := 0xFF } [] [⟨0x1FF, 1⟩]).plain (stackAddr 0xFE) = true := by decide

theorem witness_StackIsLastInFirstOut : (List.replicate 256 (0xAA : Byte)).length ≤ 256 ∧ PlainStack State.reset ∧
    (0x00FF : Addr).toNat < 0x100 ∧ 0x1FF < (0x0200 : Addr).toNat :=
  ⟨by rw [List.length_replicate], fun _ => rfl, by decide, by decide⟩

theorem witness_StackStaysInPageOne : usesStack .brk = true ∧ usesStack .pla = true ∧ usesStack (.jsr 0) = true ∧
    (∃ t, exec .brk State.reset = .next t) ∧ (∃ t, exec .pla State.reset = .next t) :=
  ⟨rfl, rfl, rfl, ⟨_, rfl⟩, ⟨_, rfl⟩⟩

theorem witness_BrkEntersThroughVector : State.reset.plain State.reset.pc = true ∧ State.reset.peek State.reset.pc = 0x00 ∧
    State.reset.plain 0xFFFE = true ∧ State.reset.plain 0xFFFF = true := by decide

theorem witness_JsrPushesLastByteAddress :
    ∀ a, (boot 0x0200 [0x20, 0x34, 0x12] [] State.reset).plain a = true ∧
    (boot 0x0200 [0x20, 0x34, 0x12] [] State.reset).peek 0x0200 = 0x20 ∧
    (boot 0x0200 [0x20, 0x34, 0x12] [] State.reset).peek 0x0201 = 0x34 ∧
    (boot 0x0200 [0x20, 0x34, 0x12] [] State.reset).peek 0x0202 = 0x12 := fun _ => ⟨rfl, rfl, rfl, rfl⟩

theorem witness_NopAndUndefinedOnlyAdvancePC :
    (boot 0x0200 [0xEA] [] State.reset).plain 0x0200 = true ∧ (boot 0x0200 [0xEA] [] State.reset).peek 0x0200 = 0xEA ∧
    (boot 0x0200 [0x80] [] State.reset).peek 0x0200 ∈ undefinedOpcodes := by decide

theorem witness_RegisterWriters : (∃ t, exec (.inc (.zp 0x10)) State.reset = .next t) ∧
    writesA (.inc (.zp 0x10)) = false ∧ writesX (.inc (.zp 0x10)) = false ∧ writesY (.inc (.zp 0x10)) = false ∧
    writesSP (.inc (.zp 0x10)) = false ∧ writesPC (.inc (.zp 0x10)) = false := ⟨⟨_, rfl⟩, rfl, rfl, rfl, rfl, rfl⟩

theorem witness_FlagWriters : (∃ t, exec (.sta (.zp 0x10)) State.reset = .next t) ∧
    writesC (.sta (.zp 0x10)) = false ∧ writesNZ (.sta (.zp 0x10)) = false ∧ writesV (.sta (.zp 0x10)) = false ∧
    writesI (.sta (.zp 0x10)) = false ∧ writesD (.sta (.zp 0x10)) = false ∧ writesB (.sta (.zp 0x10)) = false :=
  ⟨⟨_, rfl⟩, rfl, rfl, rfl, rfl, rfl, rfl⟩

theorem witness_MemoryWriters : (∃ t, exec (.asl .acc) State.reset = .next t) ∧ writesMemory (.asl .acc) = false :=
  ⟨⟨_, rfl⟩, rfl⟩

theorem witness_DecimalFlagIsReadOnlyByAdcAndSbc : (∀ o, Instr.plp ≠ .adc o) ∧ (∀ o, Instr.plp ≠ .sbc o) ∧
    Instr.plp ≠ .php ∧ Instr.plp ≠ .brk :=
  ⟨fun _ h => (by cases h), fun _ h => (by cases h), by decide, by decide⟩

theorem witness_InterruptDisableMasksNothing : Instr.cli ≠ .php ∧ Instr.cli ≠ .brk := by decide

end Sys2Proof.Tests
end

/-! ### The widenings of a byte (R17) -/
section
namespace Sys2Proof

@[simp] theorem zext16_toNat (v : Byte) : (zext16 v).toNat = v.toNat :=
  BitVec.toNat_setWidth_of_le (by decide)

/-- The sign bit of a byte is bit 7, and it is clear exactly below 0x80. -/
theorem byte_msb_eq_false_iff (v : Byte) : v.msb = false ↔ v.toNat < 0x80 := by
  rw [BitVec.msb_eq_false_iff_two_mul_lt]; omega

theorem sext16_of_lt {v : Byte} (h : v.toNat < 0x80) : sext16 v = zext16 v :=
  BitVec.signExtend_eq_setWidth_of_msb_false ((byte_msb_eq_false_iff v).mpr h)

/-- Sign extension of a negative byte fills the high byte with ones, which is adding 0xFF00 to the zero extension. -/
theorem sext16_of_not_lt {v : Byte} (h : ¬ v.toNat < 0x80) : sext16 v = zext16 v + 0xFF00 := by
  have hneg : v.msb = true := by simpa using mt (byte_msb_eq_false_iff v).mp h
  have hsext : (sext16 v).toNat = v.toNat + 0xFF00 := by
    simp [sext16, BitVec.toNat_signExtend, hneg, Nat.mod_eq_of_lt (show v.toNat < 65536 by omega)]
  apply BitVec.eq_of_toNat_eq
  rw [hsext, BitVec.toNat_add, zext16_toNat]
  exact (Nat.mod_eq_of_lt (show v.toNat + 0xFF00 < 2 ^ 16 by omega)).symm

/-- Sign extension keeps the two's complement value, in which bit 7 counts -128 where `toNat` counts it 128. -/
theorem sext16_toInt (v : Byte) : (sext16 v).toInt = (v.toNat : Int) - 256 * (v.getLsbD 7).toNat := by
  have hval : (sext16 v).toInt = v.toInt := BitVec.toInt_signExtend_of_le (by decide)
  have hsign : v.msb = v.getLsbD 7 := BitVec.msb_eq_getLsbD_last v
  rw [hval, BitVec.toInt_eq_msb_cond, hsign]
  cases v.getLsbD 7 <;> simp

/-- Settles O10, by the sign bit of the byte. -/
theorem byteWidenings : Obligations.ByteWidenings := by
  intro v
  refine ⟨zext16_toNat v, ?_, sext16_toInt v⟩
  split
  case isTrue h => exact sext16_of_lt h
  case isFalse h => exact sext16_of_not_lt h

end Sys2Proof
end

/-! ### The status byte: its layout, its installs and reset (R41 to R43, R52) -/
section
namespace Sys2Proof.Machine

/-- A flag shown at its place in the status byte: the bits of `m` when it is set, none when it is clear. -/
theorem flagMask_getLsbD (q : Bool) (m : Byte) (k : Nat) :
    (if q then m else 0x00).getLsbD k = (q && m.getLsbD k) := by
  cases q <;> simp

theorem Flags.toByte_getLsbD (p : Flags) (k : Nat) :
    p.toByte.getLsbD k = (p.n && (0x80 : Byte).getLsbD k || p.v && (0x40 : Byte).getLsbD k || (0x20 : Byte).getLsbD k ||
      p.b && (0x10 : Byte).getLsbD k || p.d && (0x08 : Byte).getLsbD k || p.i && (0x04 : Byte).getLsbD k ||
      p.z && (0x02 : Byte).getLsbD k || p.c && (0x01 : Byte).getLsbD k) := by
  simp only [Flags.toByte, BitVec.getLsbD_or, flagMask_getLsbD]

/-- Settles O2, bit by bit. -/
theorem statusByteLayout : Obligations.StatusByteLayout := by
  intro p
  refine ⟨?_, ?_, ?_, ?_, ?_, ?_, ?_, ?_⟩ <;> rw [Flags.toByte_getLsbD] <;> simp

/-- Bit 5 of a byte is not installed (R42). -/
theorem Flags.ofByte_or_bit5 (v : Byte) : Flags.ofByte (v ||| 0x20) = Flags.ofByte v := by
  simp [Flags.ofByte]

/-- A byte installed in the status reads back with bit 5 as 1 (R42). -/
theorem Flags.toByte_ofByte (v : Byte) : (Flags.ofByte v).toByte = v ||| 0x20 := by
  apply BitVec.eq_of_getLsbD_eq
  intro k hk
  rw [Flags.toByte_getLsbD, BitVec.getLsbD_or]
  interval_cases k <;> simp [Flags.ofByte]

/-- Settles O4: an install reads a byte only through the bits that setting bit 5 leaves alone. -/
theorem statusBitFiveIsNotStored : Obligations.StatusBitFiveIsNotStored := by
  intro s v w hvw
  obtain ⟨-, -, hbit5, -⟩ := statusByteLayout s.sr
  have hsame : Flags.ofByte v = Flags.ofByte w := by
    rw [← Flags.ofByte_or_bit5 v, hvw, Flags.ofByte_or_bit5]
  refine ⟨hbit5, ?_, hsame, congrArg s.setSR hsame, Flags.toByte_ofByte v⟩
  rw [Flags.installPlp, Flags.installPlp, hsame]

/-- Settles O3: the installs are read off their definitions. -/
theorem statusInstalls : Obligations.StatusInstalls :=
  fun _ => ⟨rfl, rfl, rfl, rfl, rfl, rfl, rfl, rfl⟩

/-- Every flag is clear after a reset that supplies nothing (R52). -/
theorem State.reset_flag (f : FlagName) : State.reset.sr.get f = false := by
  cases f <;> rfl

/-- Settles O1: creation copies each field, and a field not supplied is zero. -/
theorem resetHoldsInitState : Obligations.ResetHoldsInitState := by
  refine ⟨fun p mem dev => ?supplied, ?nothing, rfl, by decide⟩
  case supplied => exact ⟨rfl, rfl, rfl, rfl, rfl, rfl, rfl, rfl, rfl, rfl, rfl, rfl, rfl, rfl, rfl⟩
  case nothing => exact ⟨rfl, rfl, rfl, rfl, rfl, rfl, State.reset_flag, by decide⟩

end Sys2Proof.Machine
end

/-! ### The state after a flag is written -/
section
namespace Sys2Proof.Machine

@[simp] theorem State.hostSetFlag_a (s : State) (f : FlagName) (v : Bool) : (s.hostSetFlag f v).a = s.a := rfl
@[simp] theorem State.hostSetFlag_x (s : State) (f : FlagName) (v : Bool) : (s.hostSetFlag f v).x = s.x := rfl
@[simp] theorem State.hostSetFlag_y (s : State) (f : FlagName) (v : Bool) : (s.hostSetFlag f v).y = s.y := rfl
@[simp] theorem State.hostSetFlag_sp (s : State) (f : FlagName) (v : Bool) : (s.hostSetFlag f v).sp = s.sp := rfl
@[simp] theorem State.hostSetFlag_pc (s : State) (f : FlagName) (v : Bool) : (s.hostSetFlag f v).pc = s.pc := rfl
@[simp] theorem State.hostSetFlag_sr (s : State) (f : FlagName) (v : Bool) : (s.hostSetFlag f v).sr = s.sr.put f v := rfl

end Sys2Proof.Machine
end

/-! ### What each instruction leaves, in the shared operations (R333, R334) -/
section
namespace Sys2Proof.Machine

/-- The state an instruction leaves, each effect written in the shared operations of the registers, the port and the operands;
a flag instruction writes its flag as the state port would. -/
def State.after (s : State) : Instr → State
  | .ora o => s.logic o (fun a m => a ||| m)
  | .and o => s.logic o (fun a m => a &&& m)
  | .eor o => s.logic o (fun a m => a ^^^ m)
  | .adc o => s.accumulate o adcResult
  | .sbc o => s.accumulate o sbcResult
  | .asl t => s.shift t aslResult
  | .lsr t => s.shift t lsrResult
  | .rol t => s.shift t rolResult
  | .ror t => s.shift t rorResult
  | .cmp o => s.compareWith s.a o
  | .cpx o => s.compareWith s.x o
  | .cpy o => s.compareWith s.y o
  | .inc m => s.modify m (fun v => v + 1)
  | .dec m => s.modify m (fun v => v - 1)
  | .inx => (s.setX (s.x + 1)).setNZ (s.x + 1)
  | .iny => (s.setY (s.y + 1)).setNZ (s.y + 1)
  | .dex => (s.setX (s.x - 1)).setNZ (s.x - 1)
  | .dey => (s.setY (s.y - 1)).setNZ (s.y - 1)
  | .bit m =>
    let r := s.loadOperand (.mem m)
    r.2.setSR (r.2.sr.bitTest s.a r.1)
  | .pha => s.push s.a
  | .pla => (s.pull.2.setA s.pull.1).setNZ s.pull.1
  | .php => s.push (s.sr.toByte ||| 0x30)
  | .plp => s.pull.2.setSR (Flags.installPlp s.pull.1)
  | .brk => s.trapEntry
  | .rti => s.trapReturn
  | .jsr w => (s.push16 (s.pc - 1)).setPC w
  | .rts => s.pull16.2.setPC (s.pull16.1 + 1)
  | .jmp j => (s.resolveJump j).2.setPC (s.resolveJump j).1
  | .bpl d => s.branchIf (!s.sr.n) d
  | .bmi d => s.branchIf s.sr.n d
  | .bvc d => s.branchIf (!s.sr.v) d
  | .bvs d => s.branchIf s.sr.v d
  | .bcc d => s.branchIf (!s.sr.c) d
  | .bcs d => s.branchIf s.sr.c d
  | .bne d => s.branchIf (!s.sr.z) d
  | .beq d => s.branchIf s.sr.z d
  | .lda o => ((s.loadOperand o).2.setA (s.loadOperand o).1).setNZ (s.loadOperand o).1
  | .ldx o => ((s.loadOperand o).2.setX (s.loadOperand o).1).setNZ (s.loadOperand o).1
  | .ldy o => ((s.loadOperand o).2.setY (s.loadOperand o).1).setNZ (s.loadOperand o).1
  | .sta m => s.store m s.a
  | .stx m => s.store m s.x
  | .sty m => s.store m s.y
  | .tax => (s.setX s.a).setNZ s.a
  | .tay => (s.setY s.a).setNZ s.a
  | .txa => (s.setA s.x).setNZ s.x
  | .tya => (s.setA s.y).setNZ s.y
  | .tsx => (s.setX s.sp).setNZ s.sp
  | .txs => s.setSP s.x
  | .clc => s.hostSetFlag .carry false
  | .sec => s.hostSetFlag .carry true
  | .cli => s.hostSetFlag .interruptDisable false
  | .sei => s.hostSetFlag .interruptDisable true
  | .cld => s.hostSetFlag .decimal false
  | .sed => s.hostSetFlag .decimal true
  | .clv => s.hostSetFlag .overflow false
  | .nop | .undef _ => s

/-- Every instruction answers a next state, and `State.after` is it. -/
theorem exec_eq_after (i : Instr) (s : State) : exec i s = .next (s.after i) := by
  cases i <;> rfl

/-- A step runs the fetched instruction on the state after the fetch. -/
theorem step_eq_after (s : State) : step s = .next (s.fetchInstr.2.after s.fetchInstr.1) :=
  exec_eq_after _ _

theorem eq_after_of_exec {i : Instr} {s t : State} (h : exec i s = .next t) : t = s.after i := by
  rw [exec_eq_after] at h
  exact (Host.Outcome.next.inj h).symm

end Sys2Proof.Machine
end

/-! ### Which instructions write which register (R32 to R34, R37, R40) -/
section
namespace Sys2Proof.Machine
open Sys2Proof.Claims

/-! In each lemma the writers the rule names come first; every other instruction is built of operations that keep the
register. -/

theorem State.after_a {i : Instr} (s : State) (hw : writesA i = false) : (s.after i).a = s.a := by
  cases i with
  | ora _ | and _ | eor _ | adc _ | sbc _ | lda _ | txa | tya | pla => cases hw
  | asl t | lsr t | rol t | ror t =>
    cases t with
    | acc => cases hw
    | mem m => exact s.shift_mem_a m _
  | _ => simp [State.after]

theorem State.after_x {i : Instr} (s : State) (hw : writesX i = false) : (s.after i).x = s.x := by
  cases i with
  | ldx _ | inx | dex | tax | tsx => cases hw
  | _ => simp [State.after]

theorem State.after_y {i : Instr} (s : State) (hw : writesY i = false) : (s.after i).y = s.y := by
  cases i with
  | ldy _ | iny | dey | tay => cases hw
  | _ => simp [State.after]

theorem State.after_sp {i : Instr} (s : State) (hw : writesSP i = false) : (s.after i).sp = s.sp := by
  cases i with
  | pha | php | pla | plp | jsr _ | rts | brk | rti | txs => cases hw
  | _ => simp [State.after]

theorem State.after_pc {i : Instr} (s : State) (hw : writesPC i = false) : (s.after i).pc = s.pc := by
  cases i with
  | brk | rti | jsr _ | rts | jmp _ => cases hw
  | bpl _ | bmi _ | bvc _ | bvs _ | bcc _ | bcs _ | bne _ | beq _ => cases hw
  | _ => simp [State.after]

/-- Settles O48, one register at a time. -/
theorem registerWriters : Obligations.RegisterWriters := by
  intro i s t h
  obtain rfl := eq_after_of_exec h
  exact ⟨s.after_a, s.after_x, s.after_y, s.after_sp, s.after_pc⟩

end Sys2Proof.Machine
end

/-! ### Which instructions write which flag (R44 to R50) -/
section
namespace Sys2Proof.Machine
open Sys2Proof.Claims

@[simp] theorem Flags.withSum_i (p : Flags) (q : SumResult) : (p.withSum q).i = p.i := rfl
@[simp] theorem Flags.withSum_d (p : Flags) (q : SumResult) : (p.withSum q).d = p.d := rfl
@[simp] theorem Flags.withSum_b (p : Flags) (q : SumResult) : (p.withSum q).b = p.b := rfl
@[simp] theorem Flags.compare_i (p : Flags) (r m : Byte) : (p.compare r m).i = p.i := rfl
@[simp] theorem Flags.compare_d (p : Flags) (r m : Byte) : (p.compare r m).d = p.d := rfl
@[simp] theorem Flags.compare_b (p : Flags) (r m : Byte) : (p.compare r m).b = p.b := rfl
@[simp] theorem Flags.compare_v (p : Flags) (r m : Byte) : (p.compare r m).v = p.v := rfl
@[simp] theorem Flags.bitTest_c (p : Flags) (a m : Byte) : (p.bitTest a m).c = p.c := rfl
@[simp] theorem Flags.bitTest_i (p : Flags) (a m : Byte) : (p.bitTest a m).i = p.i := rfl
@[simp] theorem Flags.bitTest_d (p : Flags) (a m : Byte) : (p.bitTest a m).d = p.d := rfl
@[simp] theorem Flags.bitTest_b (p : Flags) (a m : Byte) : (p.bitTest a m).b = p.b := rfl

/-! A shift writes C, N and Z alone, on the accumulator and on memory (R180). -/

@[simp] theorem State.shift_sr_v (s : State) (t : Target) (f : Byte → Bool → Byte × Bool) : (s.shift t f).sr.v = s.sr.v := by
  cases t <;> simp [State.shift]
@[simp] theorem State.shift_sr_i (s : State) (t : Target) (f : Byte → Bool → Byte × Bool) : (s.shift t f).sr.i = s.sr.i := by
  cases t <;> simp [State.shift]
@[simp] theorem State.shift_sr_d (s : State) (t : Target) (f : Byte → Bool → Byte × Bool) : (s.shift t f).sr.d = s.sr.d := by
  cases t <;> simp [State.shift]
@[simp] theorem State.shift_sr_b (s : State) (t : Target) (f : Byte → Bool → Byte × Bool) : (s.shift t f).sr.b = s.sr.b := by
  cases t <;> simp [State.shift]

theorem State.after_c {i : Instr} (s : State) (hw : writesC i = false) : (s.after i).sr.c = s.sr.c := by
  cases i with
  | adc _ | sbc _ | asl _ | lsr _ | rol _ | ror _ | cmp _ | cpx _ | cpy _ | clc | sec | plp | rti => cases hw
  | _ => simp [State.after, State.modify_sr, Flags.put]

theorem State.after_nz {i : Instr} (s : State) (hw : writesNZ i = false) :
    (s.after i).sr.z = s.sr.z ∧ (s.after i).sr.n = s.sr.n := by
  cases i with
  | ora _ | and _ | eor _ | adc _ | sbc _ | asl _ | lsr _ | rol _ | ror _ | cmp _ | cpx _ | cpy _ => cases hw
  | inc _ | dec _ | inx | iny | dex | dey | bit _ | lda _ | ldx _ | ldy _ => cases hw
  | tax | tay | txa | tya | tsx | pla | plp | rti => cases hw
  | _ => simp [State.after, Flags.put]

theorem State.after_v {i : Instr} (s : State) (hw : writesV i = false) : (s.after i).sr.v = s.sr.v := by
  cases i with
  | adc _ | sbc _ | bit _ | clv | plp | rti => cases hw
  | _ => simp [State.after, State.modify_sr, Flags.put]

theorem State.after_i {i : Instr} (s : State) (hw : writesI i = false) : (s.after i).sr.i = s.sr.i := by
  cases i with
  | brk | cli | sei | plp | rti => cases hw
  | _ => simp [State.after, State.modify_sr, Flags.put]

theorem State.after_d {i : Instr} (s : State) (hw : writesD i = false) : (s.after i).sr.d = s.sr.d := by
  cases i with
  | cld | sed | plp | rti => cases hw
  | _ => simp [State.after, State.modify_sr, Flags.put]

theorem State.after_b {i : Instr} (s : State) (hw : writesB i = false) : (s.after i).sr.b = s.sr.b := by
  cases i with
  | plp | rti => cases hw
  | _ => simp [State.after, State.modify_sr, Flags.put]

/-- Settles O49, one flag at a time. -/
theorem flagWriters : Obligations.FlagWriters := by
  intro i s t h
  obtain rfl := eq_after_of_exec h
  exact ⟨s.after_c, s.after_nz, s.after_v, s.after_i, s.after_d, s.after_b⟩

end Sys2Proof.Machine
end

/-! ### The operations that do not look at the flags: they do the same whatever the status register holds -/
section
namespace Sys2Proof.Machine

variable (s : State) (p : Flags)

@[simp] theorem State.setSR_setSR (q : Flags) : (s.setSR p).setSR q = s.setSR q := rfl
@[simp] theorem State.setNZ_setSR (v : Byte) : (s.setSR p).setNZ v = s.setSR (p.withNZ v) := rfl
@[simp] theorem State.setSR_setNZ (v : Byte) : (s.setNZ v).setSR p = s.setSR p := rfl
@[simp] theorem State.setC_setSR (v : Bool) : (s.setSR p).setC v = s.setSR { p with c := v } := rfl
@[simp] theorem State.setSR_setC (v : Bool) : (s.setC v).setSR p = s.setSR p := rfl
@[simp] theorem State.setA_setSR (v : Byte) : (s.setSR p).setA v = (s.setA v).setSR p := rfl
@[simp] theorem State.setX_setSR (v : Byte) : (s.setSR p).setX v = (s.setX v).setSR p := rfl
@[simp] theorem State.setY_setSR (v : Byte) : (s.setSR p).setY v = (s.setY v).setSR p := rfl
@[simp] theorem State.setSP_setSR (v : Byte) : (s.setSR p).setSP v = (s.setSP v).setSR p := rfl
@[simp] theorem State.setPC_setSR (v : Addr) : (s.setSR p).setPC v = (s.setPC v).setSR p := rfl

@[simp] theorem State.memRead_setSR (a : Addr) : (s.setSR p).memRead a = ((s.memRead a).1, (s.memRead a).2.setSR p) := rfl

@[simp] theorem State.memWrite_setSR (a : Addr) (v : Byte) : (s.setSR p).memWrite a v = (s.memWrite a v).setSR p := by
  unfold State.memWrite
  rw [State.setSR_plain]
  split <;> rfl

@[simp] theorem State.read16_setSR (lo hi : Addr) :
    (s.setSR p).read16 lo hi = ((s.read16 lo hi).1, (s.read16 lo hi).2.setSR p) := rfl

@[simp] theorem State.push_setSR (v : Byte) : (s.setSR p).push v = (s.push v).setSR p := by
  simp only [State.push, State.setSR_sp, State.memWrite_setSR]
  rfl

@[simp] theorem State.push16_setSR (v : Addr) : (s.setSR p).push16 v = (s.push16 v).setSR p := by
  simp only [State.push16, State.push_setSR]

@[simp] theorem State.pull_setSR : (s.setSR p).pull = (s.pull.1, s.pull.2.setSR p) := rfl

@[simp] theorem State.pull16_setSR : (s.setSR p).pull16 = (s.pull16.1, s.pull16.2.setSR p) := rfl

@[simp] theorem State.resolve_setSR (m : MemMode) : (s.setSR p).resolve m = ((s.resolve m).1, (s.resolve m).2.setSR p) := by
  cases m <;> rfl

@[simp] theorem State.resolveJump_setSR (j : JumpMode) :
    (s.setSR p).resolveJump j = ((s.resolveJump j).1, (s.resolveJump j).2.setSR p) := by
  cases j <;> rfl

@[simp] theorem State.loadOperand_setSR (o : Operand) :
    (s.setSR p).loadOperand o = ((s.loadOperand o).1, (s.loadOperand o).2.setSR p) := by
  cases o with
  | imm b => rfl
  | mem m => simp only [State.loadOperand, State.resolve_setSR]; rfl

@[simp] theorem State.store_setSR (m : MemMode) (v : Byte) : (s.setSR p).store m v = (s.store m v).setSR p := by
  simp only [State.store, State.resolve_setSR, State.memWrite_setSR]

@[simp] theorem State.branchIf_setSR (q : Bool) (d : Byte) : (s.setSR p).branchIf q d = (s.branchIf q d).setSR p := by
  cases q <;> rfl

@[simp] theorem State.fetchOperands_setSR (f : Format) :
    (s.setSR p).fetchOperands f = ((s.fetchOperands f).1, (s.fetchOperands f).2.setSR p) := by
  cases f <;> rfl

@[simp] theorem State.fetchInstr_setSR : (s.setSR p).fetchInstr = (s.fetchInstr.1, s.fetchInstr.2.setSR p) := by
  have hop : (s.setSR p).beginStep.fetch8 = (s.beginStep.fetch8.1, s.beginStep.fetch8.2.setSR p) := rfl
  simp only [State.fetchInstr, hop, State.fetchOperands_setSR]

end Sys2Proof.Machine
end

/-! ### The control flags: I, D and B, which no result but a decimal sum and a pushed status reads (R47 to R49) -/
section
namespace Sys2Proof.Machine

/-- The flag is one of I, D and B. -/
def FlagName.isControl : FlagName → Bool
  | .interruptDisable | .decimal | .break => true
  | .carry | .zero | .overflow | .negative => false

/-- The instruction looks at a control flag: decimal arithmetic at D, a push of the status at all three. -/
def readsControlFlag : Instr → Bool
  | .adc _ | .sbc _ | .php | .brk => true
  | _ => false

/-- Whatever the flag holds, the instruction does the same, but for what the flag holds after it. -/
def IgnoresFlag (f : FlagName) (i : Instr) : Prop :=
  ∀ (s : State) (v : Bool), ∃ v', (s.hostSetFlag f v).after i = (s.after i).hostSetFlag f v'

theorem Flags.put_get (p : Flags) (f : FlagName) : p.put f (p.get f) = p := by
  cases f <;> rfl

theorem Flags.put_put (p : Flags) (f g : FlagName) (v w : Bool) :
    (p.put f v).put g w = (p.put g w).put f (if f = g then w else v) := by
  cases f <;> cases g <;> rfl

/-- The order of two flag writes matters only to the value one flag ends with: on the same flag the later write wins. -/
theorem State.hostSetFlag_hostSetFlag (s : State) (f g : FlagName) (v w : Bool) :
    ∃ v', (s.hostSetFlag f v).hostSetFlag g w = (s.hostSetFlag g w).hostSetFlag f v' :=
  ⟨_, congrArg s.setSR (s.sr.put_put f g v w)⟩

theorem State.hostSetFlag_self (s : State) (f : FlagName) : s.hostSetFlag f (s.sr.get f) = s :=
  congrArg s.setSR (s.sr.put_get f)

/-- For the instructions that install a whole status: both runs end in one state, whatever the flag held. -/
theorem State.exists_hostSetFlag_of_eq {s t : State} (f : FlagName) (h : s = t) : ∃ v', s = t.hostSetFlag f v' :=
  ⟨_, h.trans (t.hostSetFlag_self f).symm⟩

/-! Writing a control flag leaves C, Z, V and N, and commutes with every computation of flags. -/

section
variable {f : FlagName} (hf : f.isControl = true) (p : Flags) (v : Bool)
include hf

/-- A fact about I, D and B holds of a control flag. -/
theorem FlagName.isControl_cases : f = .interruptDisable ∨ f = .decimal ∨ f = .break := by
  cases f with
  | carry | zero | overflow | negative => cases hf
  | _ => simp

theorem Flags.put_c : (p.put f v).c = p.c := by
  obtain rfl | rfl | rfl := FlagName.isControl_cases hf <;> rfl
theorem Flags.put_z : (p.put f v).z = p.z := by
  obtain rfl | rfl | rfl := FlagName.isControl_cases hf <;> rfl
theorem Flags.put_v : (p.put f v).v = p.v := by
  obtain rfl | rfl | rfl := FlagName.isControl_cases hf <;> rfl
theorem Flags.put_n : (p.put f v).n = p.n := by
  obtain rfl | rfl | rfl := FlagName.isControl_cases hf <;> rfl

theorem Flags.put_withNZ (w : Byte) : (p.put f v).withNZ w = (p.withNZ w).put f v := by
  obtain rfl | rfl | rfl := FlagName.isControl_cases hf <;> rfl
theorem Flags.put_withC (w : Bool) : { p.put f v with c := w } = Flags.put { p with c := w } f v := by
  obtain rfl | rfl | rfl := FlagName.isControl_cases hf <;> rfl
theorem Flags.put_withSum (q : SumResult) : (p.put f v).withSum q = (p.withSum q).put f v := by
  obtain rfl | rfl | rfl := FlagName.isControl_cases hf <;> rfl
theorem Flags.put_compare (r m : Byte) : (p.put f v).compare r m = (p.compare r m).put f v := by
  obtain rfl | rfl | rfl := FlagName.isControl_cases hf <;> rfl
theorem Flags.put_bitTest (a m : Byte) : (p.put f v).bitTest a m = (p.bitTest a m).put f v := by
  obtain rfl | rfl | rfl := FlagName.isControl_cases hf <;> rfl

end

end Sys2Proof.Machine
end

/-! ### Every operation but a decimal sum and a pushed status does the same whatever a control flag holds -/
section
namespace Sys2Proof.Machine

section
variable {f : FlagName} (hf : f.isControl = true) (s : State) (v : Bool)
include hf

theorem State.modify_hostSetFlag (m : MemMode) (g : Byte → Byte) :
    (s.hostSetFlag f v).modify m g = (s.modify m g).hostSetFlag f v := by
  simp [State.modify, State.hostSetFlag, Flags.put_withNZ hf]

theorem State.shift_hostSetFlag (t : Target) (g : Byte → Bool → Byte × Bool) :
    (s.hostSetFlag f v).shift t g = (s.shift t g).hostSetFlag f v := by
  cases t <;> simp [State.shift, State.hostSetFlag, Flags.put_c hf, Flags.put_withC hf, Flags.put_withNZ hf]

theorem State.logic_hostSetFlag (o : Operand) (g : Byte → Byte → Byte) :
    (s.hostSetFlag f v).logic o g = (s.logic o g).hostSetFlag f v := by
  simp [State.logic, State.hostSetFlag, Flags.put_withNZ hf]

theorem State.accumulate_hostSetFlag (o : Operand) {g : Flags → Nat → Byte → Byte → SumResult}
    (hg : g (s.sr.put f v) = g s.sr) : (s.hostSetFlag f v).accumulate o g = (s.accumulate o g).hostSetFlag f v := by
  simp [State.accumulate, State.hostSetFlag, hg, Flags.put_withSum hf]

theorem State.compareWith_hostSetFlag (r : Byte) (o : Operand) :
    (s.hostSetFlag f v).compareWith r o = (s.compareWith r o).hostSetFlag f v := by
  simp [State.compareWith, State.hostSetFlag, Flags.put_compare hf]

/-- But for sums and pushes of the status, what an instruction does never depends on I, D or B. -/
theorem ignoresControlFlag {i : Instr} (hi : readsControlFlag i = false) : IgnoresFlag f i := by
  intro s v
  cases i with
  | adc _ | sbc _ | php | brk => cases hi
  | ora o | and o | eor o => exact ⟨v, s.logic_hostSetFlag hf v o _⟩
  | asl t | lsr t | rol t | ror t => exact ⟨v, s.shift_hostSetFlag hf v t _⟩
  | cmp o | cpx o | cpy o => exact ⟨v, s.compareWith_hostSetFlag hf v _ o⟩
  | inc m | dec m => exact ⟨v, by simp only [State.after, State.modify_hostSetFlag hf]⟩
  | plp | rti => exact State.exists_hostSetFlag_of_eq f rfl
  | clc | sec | cli | sei | cld | sed | clv => exact s.hostSetFlag_hostSetFlag f _ v _
  | bpl d | bmi d | bvc d | bvs d | bcc d | bcs d | bne d | beq d =>
    exact ⟨v, by simp [State.after, State.hostSetFlag, Flags.put_n hf, Flags.put_v hf, Flags.put_c hf, Flags.put_z hf]⟩
  | bit m => exact ⟨v, by simp [State.after, State.hostSetFlag, Flags.put_bitTest hf]⟩
  | sta m | stx m | sty m | pha | jsr _ | rts | jmp _ | txs | nop | undef _ =>
    exact ⟨v, by simp [State.after, State.hostSetFlag]⟩
  | _ => exact ⟨v, by simp [State.after, State.hostSetFlag, Flags.put_withNZ hf]⟩

end

/-- Settles O52: D is a control flag, and the instructions left out are those that look at one. -/
theorem decimalFlagIsReadOnlyByAdcAndSbc : Obligations.DecimalFlagIsReadOnlyByAdcAndSbc := by
  intro i s d hadc hsbc hphp hbrk
  have hi : readsControlFlag i = false := by
    cases i with
    | adc o => exact absurd rfl (hadc o)
    | sbc o => exact absurd rfl (hsbc o)
    | php => exact absurd rfl hphp
    | brk => exact absurd rfl hbrk
    | _ => rfl
  obtain ⟨d', h⟩ := ignoresControlFlag (f := .decimal) rfl hi s d
  exact ⟨s.after i, d', exec_eq_after i s, (exec_eq_after i _).trans (congrArg _ h)⟩

/-! ### The live B is not read at all (R49) -/

/-- A status byte pushed with bit 4 forced to 1 is the same whatever B holds. -/
theorem Flags.toByte_put_break_or (p : Flags) (b : Bool) {m : Byte} (hm : m.getLsbD 4 = true) :
    (p.put .break b).toByte ||| m = p.toByte ||| m := by
  apply BitVec.eq_of_getLsbD_eq
  intro k hk
  rw [BitVec.getLsbD_or, BitVec.getLsbD_or, Flags.toByte_getLsbD, Flags.toByte_getLsbD]
  by_cases h4 : k = 4
  · rw [h4, hm, Bool.or_true, Bool.or_true]
  · have hclear : ∀ j < 8, j ≠ 4 → (0x10 : Byte).getLsbD j = false := by decide
    simp only [Flags.put, hclear k hk h4, Bool.and_false]

theorem State.trapEntry_hostSetBreak (s : State) (b : Bool) :
    (s.hostSetFlag .break b).trapEntry = s.trapEntry.hostSetFlag .break b := by
  have hi : { s.sr.put .break b with i := true } = Flags.put { s.sr with i := true } .break b := rfl
  simp [State.trapEntry, State.hostSetFlag, Flags.toByte_put_break_or, hi]

theorem ignoresBreak (i : Instr) : IgnoresFlag .break i := by
  intro s b
  cases i with
  | adc o | sbc o => exact ⟨b, s.accumulate_hostSetFlag rfl b o rfl⟩
  | php => exact ⟨b, by simp [State.after, State.hostSetFlag, Flags.toByte_put_break_or]⟩
  | brk => exact ⟨b, s.trapEntry_hostSetBreak b⟩
  | _ => exact ignoresControlFlag rfl rfl s b

theorem State.fetchInstr_hostSetFlag (s : State) (f : FlagName) (v : Bool) :
    (s.hostSetFlag f v).fetchInstr = (s.fetchInstr.1, s.fetchInstr.2.hostSetFlag f v) := by
  simp [State.hostSetFlag]

/-- Settles O51: the fetch reads no flag, and no instruction reads B. -/
theorem breakFlagIsNeverRead : Obligations.BreakFlagIsNeverRead := by
  intro s b
  obtain ⟨b', h⟩ := ignoresBreak s.fetchInstr.1 s.fetchInstr.2 b
  refine ⟨s.fetchInstr.2.after s.fetchInstr.1, b', step_eq_after s, ?_⟩
  calc step (s.hostSetFlag .break b)
      = .next ((s.fetchInstr.2.hostSetFlag .break b).after s.fetchInstr.1) := by
        rw [step_eq_after, State.fetchInstr_hostSetFlag]
    _ = _ := congrArg _ h

end Sys2Proof.Machine
end

/-! ### What a step does to memory (R60 to R66, R69) -/
section
namespace Sys2Proof.Machine
open Sys2Proof.Claims

@[simp] theorem State.hostSetFlag_mem (s : State) (f : FlagName) (v : Bool) : (s.hostSetFlag f v).mem = s.mem := rfl
@[simp] theorem State.hostSetFlag_devices (s : State) (f : FlagName) (v : Bool) :
    (s.hostSetFlag f v).devices = s.devices := rfl
@[simp] theorem State.hostSetFlag_stepNo (s : State) (f : FlagName) (v : Bool) : (s.hostSetFlag f v).stepNo = s.stepNo := rfl

/-! ### Which instructions write memory (R121, R210) -/

theorem State.after_mem {i : Instr} (s : State) (hw : writesMemory i = false) : (s.after i).mem = s.mem := by
  cases i with
  | sta _ | stx _ | sty _ | inc _ | dec _ | pha | php | jsr _ | brk => cases hw
  | asl t | lsr t | rol t | ror t =>
    cases t with
    | acc => rfl
    | mem m => cases hw
  | _ => simp [State.after]

/-- Settles O50: where memory is the same list, every byte reads as before. -/
theorem memoryWriters : Obligations.MemoryWriters := by
  intro i s t h hw a _
  obtain rfl := eq_after_of_exec h
  exact congrArg (Memory.get · a.toNat) (s.after_mem hw)

/-! ### The canonical form (log entry 2) -/

/-- Every instruction keeps the canonical form: each writer of memory writes it by stores or pushes. -/
theorem State.after_wf (s : State) (i : Instr) (h : s.mem.wf = true) : (s.after i).mem.wf = true := by
  cases hw : writesMemory i with
  | false => rwa [s.after_mem hw]
  | true =>
    cases i with
    | sta m | stx m | sty m => exact s.store_wf m _ h
    | inc m | dec m => exact s.modify_wf m _ h
    | asl t | lsr t | rol t | ror t => exact s.shift_wf t _ h
    | pha | php => exact s.push_wf _ h
    | jsr _ => exact s.push16_wf _ h
    | brk => exact s.trapEntry_wf h
    | _ => cases hw

/-- The step is the fetched instruction's effect on the state after the fetch. -/
theorem eq_after_of_step {s t : State} (h : step s = .next t) : t = s.fetchInstr.2.after s.fetchInstr.1 :=
  eq_after_of_exec h

/-- Settles O8: the fetch leaves memory as it is, and every instruction keeps the form. -/
theorem stepKeepsMemoryCanonical : Obligations.StepKeepsMemoryCanonical := by
  intro s t hs h
  obtain rfl := eq_after_of_step h
  exact State.after_wf _ _ (by rwa [State.fetchInstr_mem])

/-- Settles O7: memory with nothing listed has the form. -/
theorem resetMemoryIsCanonical : Obligations.ResetMemoryIsCanonical := Memory.wf_nil

/-! ### Outside `PlainRam` (R66; log entry 5) -/

@[simp] theorem State.after_devices (s : State) (i : Instr) : (s.after i).devices = s.devices := by
  cases i <;> simp [State.after]

@[simp] theorem State.after_stepNo (s : State) (i : Instr) : (s.after i).stepNo = s.stepNo := by
  cases i <;> simp [State.after]

section
variable {s : State} {c : Addr} (hc : s.plain c = false)
include hc

/-- A write stores at the byte's address only where it is plain, so not at a byte outside `PlainRam`. -/
theorem State.not_stored_of_not_plain (a : Addr) : ¬ (c = a ∧ s.plain a = true) := by
  rintro ⟨rfl, hp⟩
  exact absurd hp (by simp [hc])

theorem State.push_peek_of_not_plain (v : Byte) : (s.push v).peek c = s.peek c := by
  rw [State.push_peek, if_neg (State.not_stored_of_not_plain hc _)]

theorem State.push16_peek_of_not_plain (v : Addr) : (s.push16 v).peek c = s.peek c := by
  rw [State.push16, State.push_peek_of_not_plain (by simpa), State.push_peek_of_not_plain hc]

theorem State.trapEntry_peek_of_not_plain : s.trapEntry.peek c = s.peek c := by
  simp only [State.trapEntry, State.setPC_peek, State.read16_peek, State.setSR_peek]
  rw [State.push_peek_of_not_plain (by simpa), State.push16_peek_of_not_plain hc]

/-- No instruction changes a byte outside `PlainRam`. -/
theorem State.after_peek_of_not_plain (i : Instr) : (s.after i).peek c = s.peek c := by
  cases hw : writesMemory i with
  | false => exact congrArg (Memory.get · c.toNat) (s.after_mem hw)
  | true =>
    have hstored := State.not_stored_of_not_plain hc
    cases i with
    | sta m | stx m | sty m => exact (s.store_peek m _ c).trans (if_neg (hstored _))
    | inc m | dec m => exact (s.modify_peek m _ c).trans (if_neg (hstored _))
    | asl t | lsr t | rol t | ror t =>
      cases t with
      | acc => cases hw
      | mem m => exact (s.shift_mem_peek m _ c).trans (if_neg (hstored _))
    | pha | php => exact State.push_peek_of_not_plain hc _
    | jsr _ => exact State.push16_peek_of_not_plain hc _
    | brk => exact State.trapEntry_peek_of_not_plain hc
    | _ => cases hw

end

/-- Settles O9: the fetch counts the step and changes no byte, and no instruction changes a byte outside `PlainRam`. -/
theorem stepStoresOnlyInPlainRam : Obligations.StepStoresOnlyInPlainRam := by
  intro s t h
  obtain rfl := eq_after_of_step h
  refine ⟨by simp, by simp, fun a ha => ?_⟩
  rw [State.after_peek_of_not_plain (by simpa using ha), State.fetchInstr_peek]

end Sys2Proof.Machine
end

/-! ### Reads after writes, by the core and by the host (R18, R66, R342) -/
section
namespace Sys2Proof.Machine

/-- A read outside `PlainRam` is the draw of this access in this step (R66; log entry 5). -/
theorem State.answer_of_not_plain (s : State) (a : Addr) (h : s.plain a = false) :
    s.answer a = Config.deviceByte s.stepNo s.port.length := by
  simp [State.answer, h]

/-- A core write leaves everything but the byte at its address and the record. -/
theorem State.memWrite_changes (s : State) (a : Addr) (v : Byte) : Changes [] [] [a] s (s.memWrite a v) := by
  refine ⟨?regs, ?flags, ?mem, s.memWrite_devices a v, s.memWrite_stepNo a v⟩
  case regs => intro r _; cases r <;> simp [State.reg]
  case flags => intro f _; rw [State.memWrite_sr]
  case mem => exact fun b hb => s.memWrite_peek_other v (by simpa using hb)

section
variable {s : State} {a : Addr}

theorem State.memRead_memWrite_of_plain (h : s.plain a = true) (v : Byte) : ((s.memWrite a v).memRead a).1 = v := by
  rw [State.memRead_fst, State.answer_plain _ _ (by simpa using h), State.memWrite_peek, if_pos ⟨rfl, h⟩]

theorem State.memRead_hostWrite_of_plain (h : s.plain a = true) (v : Byte) : ((s.hostWrite a v).memRead a).1 = v := by
  rw [State.memRead_fst, State.answer_plain _ _ (by simpa using h), State.hostWrite_peek, if_pos ⟨rfl, h⟩]

theorem State.memWrite_peek_of_not_plain (h : s.plain a = false) (v : Byte) (b : Addr) :
    (s.memWrite a v).peek b = s.peek b := by
  simp [State.memWrite_peek, h]

theorem State.hostWrite_peek_other {b : Addr} (hab : b ≠ a) (v : Byte) : (s.hostWrite a v).peek b = s.peek b := by
  simp [State.hostWrite_peek, hab]

end

/-- Settles O6, from what a read is answered and what a write stores, inside `PlainRam` and outside it. -/
theorem plainRamReadsLastWrite : Obligations.PlainRamReadsLastWrite := by
  refine ⟨fun s a v => ⟨?plain, ?device, ?other, rfl, s.memWrite_port a v, s.memWrite_pc a v, s.memWrite_changes a v⟩,
    fun p mem dev a => ⟨rfl, ?initial⟩⟩
  case plain =>
    exact fun h => ⟨s.answer_plain a h, State.memRead_memWrite_of_plain h v, State.memRead_hostWrite_of_plain h v⟩
  case device =>
    exact fun h => ⟨s.answer_of_not_plain a h, fun b _ => State.memWrite_peek_of_not_plain h v b⟩
  case other => exact fun b hb => ⟨s.memWrite_peek_other v hb, State.hostWrite_peek_other hb v⟩
  case initial => exact State.answer_plain _ a

end Sys2Proof.Machine
end

/-! ### The format an opcode byte selects is the format of the instruction it decodes to (R90, R92) -/
section
namespace Sys2Proof

/-- Every row of the opcode map makes an instruction of its own format, whatever the operand bytes. -/
theorem opcodeMap_make_format (b1 b2 : Byte) :
    opcodeMap.all (fun r => r.all (fun q => (q.make b1 b2).format == q.format)) = true := by
  simp only [opcodeMap, List.all_append, Bool.and_eq_true]
  and_intros <;> rfl

theorem opcodeRow_mem {op : Byte} {q : OpcodeRow} (h : opcodeRow op = some q) : some q ∈ opcodeMap := by
  rw [opcodeRow, List.getD_eq_getElem?_getD] at h
  cases hget : opcodeMap[op.toNat]? with
  | none => simp [hget] at h
  | some r =>
    obtain rfl : r = some q := by simpa [hget] using h
    exact List.mem_of_getElem? hget

theorem decodeOp_format (op b1 b2 : Byte) : (decodeOp op b1 b2).format = formatOf op := by
  unfold decodeOp formatOf
  cases hrow : opcodeRow op with
  | none => rfl
  | some q => simpa using List.all_eq_true.mp (opcodeMap_make_format b1 b2) _ (opcodeRow_mem hrow)

end Sys2Proof
end

/-! ### How many accesses a step makes (R69, R333) -/
section
namespace Sys2Proof

/-- The reads of a fetch after that of the opcode: one per operand byte, BRK's signature byte left out (R69, R231; D10). -/
def Format.operandReads : Format → Nat
  | .brk => 0
  | f => formatLength f - 1

/-- The reads of a mode's pointer (R130, R131). -/
def MemMode.pointerReads : MemMode → Nat
  | .izx _ | .izy _ => 2
  | _ => 0

/-- The reads that load an operand: none of an immediate byte (R121, R124). -/
def Operand.accesses : Operand → Nat
  | .imm _ => 0
  | .mem m => m.pointerReads + 1

/-- The accesses of a shift: in memory, one read and one write after the pointer reads (R180). -/
def Target.accesses : Target → Nat
  | .acc => 0
  | .mem m => m.pointerReads + 2

/-- The reads of a jump's pointer (R132). -/
def JumpMode.pointerReads : JumpMode → Nat
  | .abs _ => 0
  | .ind _ => 2

/-- The accesses an instruction makes after its fetch (R69). -/
def Instr.accesses : Instr → Nat
  | .ora o | .and o | .eor o | .adc o | .sbc o | .cmp o | .cpx o | .cpy o | .lda o | .ldx o | .ldy o => o.accesses
  | .asl t | .lsr t | .rol t | .ror t => t.accesses
  | .inc m | .dec m => m.pointerReads + 2
  | .bit m | .sta m | .stx m | .sty m => m.pointerReads + 1
  | .pha | .pla | .php | .plp => 1
  | .jsr _ | .rts => 2
  | .rti => 3
  | .brk => 5
  | .jmp j => j.pointerReads
  | _ => 0

/-! No instruction makes more than five accesses after the read of its opcode: a mode with more operand bytes has fewer
pointer reads. -/

theorem MemMode.operandReads_add_pointerReads (m : MemMode) : m.format.operandReads + m.pointerReads ≤ 3 := by
  cases m <;> simp [MemMode.format, Format.operandReads, formatLength, MemMode.pointerReads]

theorem Operand.operandReads_add_accesses (o : Operand) : o.format.operandReads + o.accesses ≤ 5 := by
  cases o with
  | imm b => exact Nat.le_of_ble_eq_true rfl
  | mem m => exact Nat.le_succ_of_le (Nat.succ_le_succ m.operandReads_add_pointerReads)

theorem Target.operandReads_add_accesses (t : Target) : t.format.operandReads + t.accesses ≤ 5 := by
  cases t with
  | acc => decide
  | mem m => exact Nat.add_le_add_right m.operandReads_add_pointerReads 2

theorem Instr.operandReads_add_accesses (i : Instr) : i.format.operandReads + i.accesses ≤ 5 := by
  cases i with
  | ora o | and o | eor o | adc o | sbc o | cmp o | cpx o | cpy o | lda o | ldx o | ldy o =>
    exact o.operandReads_add_accesses
  | asl t | lsr t | rol t | ror t => exact t.operandReads_add_accesses
  | inc m | dec m => exact (Target.mem m).operandReads_add_accesses
  | bit m | sta m | stx m | sty m => exact (Operand.mem m).operandReads_add_accesses
  | jmp j => cases j <;> exact Nat.le_of_ble_eq_true rfl
  | _ => exact Nat.le_of_ble_eq_true rfl

namespace Machine

/-- The record of `t` is that of `s` with `n` accesses added at its end. -/
def Appends (n : Nat) (s t : State) : Prop := ∃ new, t.port = s.port ++ new ∧ new.length = n

theorem Appends.of_port {s t : State} {new : List Access} (h : t.port = s.port ++ new) : Appends new.length s t :=
  ⟨new, h, rfl⟩

theorem Appends.of_port_eq {s t : State} (h : t.port = s.port) : Appends 0 s t := ⟨[], by simpa using h, rfl⟩

/-- Accesses added after others are added to them. -/
theorem Appends.append {n : Nat} {s t u : State} {new : List Access} (h : Appends n s t) (hu : u.port = t.port ++ new) :
    Appends (n + new.length) s u := by
  obtain ⟨old, ht, rfl⟩ := h
  exact ⟨old ++ new, by rw [hu, ht, List.append_assoc], List.length_append⟩

theorem Appends.trans {m n : Nat} {s t u : State} (h : Appends m s t) (h' : Appends n t u) : Appends (m + n) s u := by
  obtain ⟨new, hu, rfl⟩ := h'
  exact h.append hu

theorem State.resolve_appends (s : State) (m : MemMode) : Appends m.pointerReads s (s.resolve m).2 := by
  cases m with
  | izx b | izy b => exact .of_port (s.read16_port _ _)
  | _ => exact .of_port_eq rfl

theorem State.resolveJump_appends (s : State) (j : JumpMode) : Appends j.pointerReads s (s.resolveJump j).2 := by
  cases j with
  | abs w => exact .of_port_eq rfl
  | ind w => exact .of_port (s.read16_port _ _)

theorem State.loadOperand_appends (s : State) (o : Operand) : Appends o.accesses s (s.loadOperand o).2 := by
  cases o with
  | imm b => exact .of_port_eq rfl
  | mem m => exact (s.resolve_appends m).append (State.memRead_port _ _)

theorem State.shift_appends (s : State) (t : Target) (f : Byte → Bool → Byte × Bool) :
    Appends t.accesses s (s.shift t f) := by
  cases t with
  | acc => exact .of_port_eq rfl
  | mem m => exact (s.resolve_appends m).append (s.shift_mem_port m f)

@[simp] theorem State.answer_setSR (s : State) (p : Flags) (a : Addr) : (s.setSR p).answer a = s.answer a := rfl

/-- BRK's accesses: three pushes, then the two reads of the vector (R231). -/
theorem State.trapEntry_port (s : State) : ∃ lo hi, s.trapEntry.port = s.port ++
    [.write (stackAddr s.sp) (hiByte s.pc), .write (stackAddr (s.sp - 1)) (loByte s.pc),
      .write (stackAddr (s.sp - 1 - 1)) (s.sr.toByte ||| 0x10), .read breakVectorLo lo, .read breakVectorHi hi] := by
  obtain ⟨t, ht⟩ : ∃ t, t = (s.push16 s.pc).push (s.sr.toByte ||| 0x10) := ⟨_, rfl⟩
  refine ⟨t.answer breakVectorLo, (t.memRead breakVectorLo).2.answer breakVectorHi, ?_⟩
  simp [State.trapEntry, ht]

/-- RTI's accesses: three pulls (R232). -/
theorem State.trapReturn_port (s : State) : s.trapReturn.port = s.port ++
    [.read (stackAddr (s.sp + 1)) s.pull.1, .read (stackAddr (s.sp + 1 + 1)) s.pull.2.pull.1,
      .read (stackAddr (s.sp + 1 + 1 + 1)) s.pull.2.pull.2.pull.1] := by
  simp [State.trapReturn]

/-- Every instruction makes its own number of accesses, after those of its fetch. -/
theorem State.after_appends (s : State) (i : Instr) : Appends i.accesses s (s.after i) := by
  cases i with
  | ora o | and o | eor o | adc o | sbc o | cmp o | cpx o | cpy o | lda o | ldx o | ldy o => exact s.loadOperand_appends o
  | bit m => exact s.loadOperand_appends (.mem m)
  | asl t | lsr t | rol t | ror t => exact s.shift_appends t _
  | inc m | dec m => exact (s.resolve_appends m).append (s.modify_port m _)
  | sta m | stx m | sty m => exact (s.resolve_appends m).append (s.store_port m _)
  | pha | php => exact .of_port (s.push_port _)
  | pla | plp => exact .of_port s.pull_port
  | jsr w => exact .of_port (s.push16_port _)
  | rts => exact .of_port s.pull16_port
  | brk =>
    obtain ⟨lo, hi, h⟩ := s.trapEntry_port
    exact .of_port h
  | rti => exact .of_port s.trapReturn_port
  | jmp j => exact s.resolveJump_appends j
  | bpl d | bmi d | bvc d | bvs d | bcc d | bcs d | bne d | beq d => exact .of_port_eq (s.branchIf_port _ d)
  | _ => exact .of_port_eq rfl

/-! ### The accesses of the fetch, and of the step -/

theorem State.fetchOperands_appends (s : State) (f : Format) :
    Appends f.operandReads s (s.fetchOperands f).2 := by
  cases f with
  | imp | acc | brk => exact .of_port_eq rfl
  | imm | zp | zpx | zpy | izx | izy | rel => exact .of_port s.fetch8_port
  | abs | abx | aby | ind => exact (Appends.of_port s.fetch8_port).append (State.fetch8_port _)

/-- The accesses of a step after the read of the opcode: those of the operand bytes, then those of the instruction. -/
theorem step_appends {s t : State} (h : step s = .next t) :
    ∃ n ≤ 5, Appends n s.beginStep.fetch8.2 t := by
  obtain rfl := eq_after_of_step h
  have hbound := s.fetchInstr.1.operandReads_add_accesses
  have hformat : s.fetchInstr.1.format = formatOf s.beginStep.fetch8.1 := decodeOp_format _ _ _
  rw [hformat] at hbound
  exact ⟨_, hbound, (State.fetchOperands_appends _ _).trans (State.after_appends _ _)⟩

/-- The first access of a step is the read of the opcode at PC (R333). -/
theorem beginStep_fetch8_port (s : State) : s.beginStep.fetch8.2.port = [.read s.pc (s.beginStep.answer s.pc)] := rfl

/-- Settles O17: one read of the opcode, and at most five accesses after it. -/
theorem stepAccessesAreBounded : Obligations.StepAccessesAreBounded := by
  intro s t h
  obtain ⟨n, hn, later, hport, rfl⟩ := step_appends h
  rw [beginStep_fetch8_port, List.singleton_append] at hport
  refine ⟨?_, _, later, hport, s.beginStep.answer_plain s.pc⟩
  rw [hport]
  exact Nat.succ_le_succ hn

/-- Settles O18: the store is the next fetch's byte, since neither PC nor `PlainRam` has changed. -/
theorem fetchSeesEarlierStore : Obligations.FetchSeesEarlierStore := by
  intro s m hea hplain
  obtain ⟨u, hu⟩ : ∃ u, step (s.store m s.a) = .next u := ⟨_, step_eq_after _⟩
  obtain ⟨-, v, later, hport, hv⟩ := stepAccessesAreBounded _ u hu
  rw [State.store_pc, State.store_plain, State.store_peek, hea, if_pos ⟨rfl, hplain⟩] at hv
  refine ⟨s.store m s.a, u, rfl, hu, ?_⟩
  rw [hport, hv hplain, State.store_pc, List.head?_cons]

end Machine
end Sys2Proof
end

/-! ### Encode and decode: the opcode an instruction is encoded with, and its entry in the map (R90 to R94) -/
section
namespace Sys2Proof

/-- The opcode an instruction is encoded with, in the mode it is written in: none when its rule has no such mode. -/
def Instr.opcode (i : Instr) : Option Byte := lookupOpcode i.format (instrOpcodes i)

theorem encode_of_opcode {i : Instr} {op : Byte} (h : i.opcode = some op) : encode i = some (op :: instrOperandBytes i) :=
  congrArg (Option.map (· :: instrOperandBytes i)) h

/-! #### The encoder's opcodes: an instruction is well formed when it has one -/

/-- A format is looked up with success exactly when the table lists it. -/
theorem lookupOpcode_isSome (f : Format) (table : List (Format × Byte)) :
    (lookupOpcode f table).isSome = (table.map Prod.fst).contains f := by
  induction table with
  | nil => rfl
  | cons entry table ih =>
    rw [List.map_cons, List.contains_cons, lookupOpcode, ← ih]
    split
    case isTrue h => simp [h]
    case isFalse h => simp [h]

theorem Instr.wf_undef (op : Byte) : (Instr.undef op).wf = undefinedOpcodes.contains op := Bool.true_and _

theorem Instr.opcode_undef (op : Byte) : (Instr.undef op).opcode = if undefinedOpcodes.contains op then some op else none :=
  apply_ite (lookupOpcode .imp) _ _ _

/-- The modes an instruction takes are those its encoding line lists, and UNDEF's byte has to be one of R97's. -/
theorem Instr.wf_eq_opcode_isSome (i : Instr) : i.wf = i.opcode.isSome := by
  cases i with
  | undef op =>
    rw [Instr.wf_undef, Instr.opcode_undef]
    cases undefinedOpcodes.contains op <;> rfl
  | _ =>
    rw [Instr.opcode, lookupOpcode_isSome]
    exact Bool.and_true _

theorem wellFormed_iff_opcode (i : Instr) : WellFormed i ↔ ∃ op, i.opcode = some op := by
  rw [WellFormed, Instr.wf_eq_opcode_isSome, Option.isSome_iff_exists]

theorem Instr.opcode_undef_eq_some_iff (b op : Byte) :
    (Instr.undef b).opcode = some op ↔ b = op ∧ op ∈ undefinedOpcodes := by
  rw [Instr.opcode_undef, Option.ite_none_right_eq_some, List.contains_iff_mem, Option.some_inj]
  exact ⟨fun ⟨hmem, hop⟩ => ⟨hop, hop ▸ hmem⟩, fun ⟨hop, hmem⟩ => ⟨hop ▸ hmem, hop⟩⟩

/-! #### The operand bytes: as many as the format has -/

theorem memModeBytes_length (m : MemMode) : (memModeBytes m).length + 1 = formatLength m.format := by cases m <;> rfl

theorem operandBytes_length (o : Operand) : (operandBytes o).length + 1 = formatLength o.format := by
  cases o with
  | imm b => rfl
  | mem m => exact memModeBytes_length m

theorem targetBytes_length (t : Target) : (targetBytes t).length + 1 = formatLength t.format := by
  cases t with
  | acc => rfl
  | mem m => exact memModeBytes_length m

theorem jumpModeBytes_length (j : JumpMode) : (jumpModeBytes j).length + 1 = formatLength j.format := by cases j <;> rfl

theorem instrOperandBytes_length (i : Instr) : (instrOperandBytes i).length + 1 = instrLength i := by
  cases i with
  | ora o | and o | eor o | adc o | sbc o | cmp o | cpx o | cpy o | lda o | ldx o | ldy o => exact operandBytes_length o
  | asl t | lsr t | rol t | ror t => exact targetBytes_length t
  | inc m | dec m | bit m | sta m | stx m | sty m => exact memModeBytes_length m
  | jmp j => exact jumpModeBytes_length j
  | _ => rfl

/-! #### The map's entry for an operand reads the operand back from its bytes -/

/-- The map's entry for an operation on memory in a mode. -/
def memRow (f : MemMode → Instr) : MemMode → Option OpcodeRow
  | .zp _ => OpMap.zp f | .zpx _ => OpMap.zpx f | .zpy _ => OpMap.zpy f | .abs _ => OpMap.abs f
  | .abx _ => OpMap.abx f | .aby _ => OpMap.aby f | .izx _ => OpMap.izx f | .izy _ => OpMap.izy f

/-- The map's entry for an operation that reads an operand. -/
def operandRow (f : Operand → Instr) : Operand → Option OpcodeRow
  | .imm _ => OpMap.imm f
  | .mem m => memRow (OpMap.rd f) m

/-- The map's entry for a shift or rotate of a target. -/
def targetRow (f : Target → Instr) : Target → Option OpcodeRow
  | .acc => OpMap.acc f
  | .mem m => memRow (OpMap.sh f) m

/-- The map's entry for a jump. -/
def jumpRow : JumpMode → Option OpcodeRow
  | .abs _ => OpMap.jmpAbs
  | .ind _ => OpMap.jmpInd

/-- Reading the opcode `op`, the decoder takes the instruction `i` back from the operand bytes `bs`, whatever follows. -/
def ReadsBack (op : Byte) (bs : List Byte) (i : Instr) : Prop :=
  ∀ rest, decodeOp op ((bs ++ rest).getD 0 0) ((bs ++ rest).getD 1 0) = i

theorem decodeOp_of_row {op : Byte} {q : OpcodeRow} (h : opcodeRow op = some q) (b1 b2 : Byte) :
    decodeOp op b1 b2 = q.make b1 b2 := by
  rw [decodeOp, h]

theorem decodeOp_of_row_none {op : Byte} (h : opcodeRow op = none) (b1 b2 : Byte) : decodeOp op b1 b2 = .undef op := by
  rw [decodeOp, h]

section
variable {op : Byte}

theorem readsBack_memRow {f : MemMode → Instr} {m : MemMode} (h : opcodeRow op = memRow f m) :
    ReadsBack op (memModeBytes m) (f m) := by
  intro rest
  cases m with
  | zp b | zpx b | zpy b | izx b | izy b => exact decodeOp_of_row h _ _
  | abs w | abx w | aby w =>
    refine (decodeOp_of_row h _ _).trans ?_
    simp [memModeBytes]

theorem readsBack_operandRow {f : Operand → Instr} {o : Operand} (h : opcodeRow op = operandRow f o) :
    ReadsBack op (operandBytes o) (f o) := by
  cases o with
  | imm b => exact fun rest => decodeOp_of_row h _ _
  | mem m => exact readsBack_memRow h

theorem readsBack_targetRow {f : Target → Instr} {t : Target} (h : opcodeRow op = targetRow f t) :
    ReadsBack op (targetBytes t) (f t) := by
  cases t with
  | acc => exact fun rest => decodeOp_of_row h _ _
  | mem m => exact readsBack_memRow h

theorem readsBack_jumpRow {j : JumpMode} (h : opcodeRow op = jumpRow j) : ReadsBack op (jumpModeBytes j) (.jmp j) := by
  intro rest
  cases j with
  | abs w | ind w =>
    refine (decodeOp_of_row h _ _).trans ?_
    simp [jumpModeBytes]

end

/-! #### The opcode map against the encoder's opcodes -/

theorem opcodeMap_length : opcodeMap.length = 256 := by
  simp only [opcodeMap, List.length_append]
  rfl

/-- The entry of a byte stands in the map at the byte's place. -/
theorem opcodeRow_mem_zipIdx (op : Byte) : (opcodeRow op, op.toNat) ∈ opcodeMap.zipIdx := by
  have hlt : op.toNat < opcodeMap.length := opcodeMap_length ▸ op.isLt
  rw [List.mem_zipIdx_iff_getElem?, opcodeRow, List.getD_eq_getElem _ _ hlt, List.getElem?_eq_getElem hlt]

theorem eq_opcodeRow_of_mem_zipIdx {entry : Option OpcodeRow × Nat} (h : entry ∈ opcodeMap.zipIdx) :
    entry.1 = opcodeRow (BitVec.ofNat 8 entry.2) := by
  rw [List.mem_zipIdx_iff_getElem?] at h
  obtain ⟨hlt, -⟩ := List.getElem?_eq_some_iff.mp h
  rw [opcodeMap_length] at hlt
  rw [opcodeRow, BitVec.toNat_ofNat, Nat.mod_eq_of_lt hlt, List.getD_eq_getElem?_getD, h, Option.getD_some]

/-- The places of the map of R94 without an entry are the bytes R97 lists, in its order. -/
theorem opcodeMap_undefined :
    (opcodeMap.zipIdx.filter (·.1.isNone)).map (fun entry => BitVec.ofNat 8 entry.2) = undefinedOpcodes := by decide

theorem opcodeRow_eq_none_iff (op : Byte) : opcodeRow op = none ↔ op ∈ undefinedOpcodes := by
  rw [← opcodeMap_undefined, List.mem_map]
  constructor
  · intro hrow
    exact ⟨_, List.mem_filter.mpr ⟨opcodeRow_mem_zipIdx op, by simp [hrow]⟩, by simp⟩
  · rintro ⟨entry, hmem, rfl⟩
    obtain ⟨hentry, hnone⟩ := List.mem_filter.mp hmem
    rw [← eq_opcodeRow_of_mem_zipIdx hentry]
    exact Option.isNone_iff_eq_none.mp hnone

/-- The map's entry for the opcode of an instruction reads the instruction back: each encoding line of files 41 to 48 agrees
with the map of R94. -/
theorem readsBack_opcode {i : Instr} {op : Byte} (h : i.opcode = some op) : ReadsBack op (instrOperandBytes i) i := by
  cases i with
  | ora o | and o | eor o | adc o | sbc o | cmp o | cpx o | cpy o | lda o | ldx o | ldy o =>
    apply readsBack_operandRow
    cases o with
    | imm b => cases h; rfl
    | mem m => cases m <;> cases h <;> rfl
  | asl t | lsr t | rol t | ror t =>
    apply readsBack_targetRow
    cases t with
    | acc => cases h; rfl
    | mem m => cases m <;> cases h <;> rfl
  | inc m | dec m | bit m | sta m | stx m | sty m =>
    apply readsBack_memRow
    cases m <;> cases h <;> rfl
  | jmp j =>
    apply readsBack_jumpRow
    cases j <;> cases h <;> rfl
  | jsr w =>
    cases h
    intro rest
    exact congrArg Instr.jsr (joinBytes_hiByte_loByte w)
  | undef b =>
    obtain ⟨rfl, hmem⟩ := (Instr.opcode_undef_eq_some_iff b op).mp h
    exact fun rest => decodeOp_of_row_none ((opcodeRow_eq_none_iff b).mpr hmem) _ _
  | _ => cases h; exact fun rest => rfl

/-- Every entry of the map makes an instruction that is encoded with the byte the entry stands at. -/
theorem opcodeMap_make_opcode (b1 b2 : Byte) : ∀ entry ∈ opcodeMap.zipIdx,
    entry.1.map (fun q => (q.make b1 b2).opcode) = entry.1.map (fun _ => some (BitVec.ofNat 8 entry.2)) := by
  simp only [opcodeMap, List.zipIdx_append, List.forall_mem_append, List.length_append]
  and_intros <;> (refine List.map_inj_left.mp ?_; rfl)

theorem decodeOp_opcode (op b1 b2 : Byte) : (decodeOp op b1 b2).opcode = some op := by
  cases hrow : opcodeRow op with
  | none =>
    rw [decodeOp_of_row_none hrow, Instr.opcode_undef_eq_some_iff]
    exact ⟨rfl, (opcodeRow_eq_none_iff op).mp hrow⟩
  | some q =>
    have hmake := opcodeMap_make_opcode b1 b2 _ (opcodeRow_mem_zipIdx op)
    rw [decodeOp_of_row hrow]
    simpa [hrow] using hmake

/-- The operand bytes as the encoder writes them, of the two bytes that follow the opcode: a word joined and split again, and
0x00 for BRK's signature byte. -/
def Format.writtenBytes (f : Format) (b1 b2 : Byte) : List Byte :=
  match f with
  | .imp | .acc => []
  | .imm | .zp | .zpx | .zpy | .izx | .izy | .rel => [b1]
  | .abs | .abx | .aby | .ind => [loByte (joinBytes b2 b1), hiByte (joinBytes b2 b1)]
  | .brk => [0x00]

theorem opcodeMap_make_writtenBytes (b1 b2 : Byte) : ∀ r ∈ opcodeMap,
    r.map (fun q => instrOperandBytes (q.make b1 b2)) = r.map (fun q => q.format.writtenBytes b1 b2) := by
  simp only [opcodeMap, List.forall_mem_append]
  and_intros <;> (refine List.map_inj_left.mp ?_; rfl)

theorem instrOperandBytes_decodeOp (op b1 b2 : Byte) :
    instrOperandBytes (decodeOp op b1 b2) = (formatOf op).writtenBytes b1 b2 := by
  unfold decodeOp formatOf
  cases hrow : opcodeRow op with
  | none => rfl
  | some q => exact Option.some_inj.mp (opcodeMap_make_writtenBytes b1 b2 _ (opcodeRow_mem hrow))

/-- But for BRK's signature byte, the operand bytes written are the bytes read. -/
theorem Format.writtenBytes_eq_take {f : Format} (h : f ≠ .brk) (b1 b2 : Byte) :
    f.writtenBytes b1 b2 = [b1, b2].take (formatLength f - 1) := by
  cases f with
  | brk => exact absurd rfl h
  | abs | abx | aby | ind => simp [Format.writtenBytes, formatLength]
  | _ => rfl

theorem formatLength_pos (f : Format) : 0 < formatLength f := by cases f <;> decide

theorem formatLength_le_three (f : Format) : formatLength f ≤ 3 := by cases f <;> decide

theorem MemMode.format_ne_brk (m : MemMode) : m.format ≠ .brk := by cases m <;> nofun

theorem Operand.format_ne_brk (o : Operand) : o.format ≠ .brk := by
  cases o with
  | imm b => nofun
  | mem m => exact m.format_ne_brk

theorem Target.format_ne_brk (t : Target) : t.format ≠ .brk := by
  cases t with
  | acc => nofun
  | mem m => exact m.format_ne_brk

theorem eq_brk_of_format {i : Instr} (h : i.format = .brk) : i = .brk := by
  cases i with
  | brk => rfl
  | ora o | and o | eor o | adc o | sbc o | cmp o | cpx o | cpy o | lda o | ldx o | ldy o => exact absurd h o.format_ne_brk
  | asl t | lsr t | rol t | ror t => exact absurd h t.format_ne_brk
  | inc m | dec m | bit m | sta m | stx m | sty m => exact absurd h m.format_ne_brk
  | jmp j => cases j <;> cases h
  | _ => cases h

/-! #### The decoder on a byte string -/

/-- Given the operand bytes of its format, the decoder reads an instruction and leaves what follows them. -/
theorem decode_cons_append {op : Byte} {operands : List Byte} (h : operands.length + 1 = formatLength (formatOf op))
    (rest : List Byte) : decode (op :: (operands ++ rest)) =
      .ok (decodeOp op ((operands ++ rest).getD 0 0) ((operands ++ rest).getD 1 0), rest) := by
  have hlen : formatLength (formatOf op) - 1 = operands.length := by omega
  simp [decode, hlen]

/-- What the decoder reads is an opcode byte with the operand bytes of its format, and it leaves what follows them. -/
theorem exists_operands_of_decode {bs rest : List Byte} {i : Instr} (h : decode bs = .ok (i, rest)) :
    ∃ op operands, bs = op :: (operands ++ rest) ∧ operands.length + 1 = formatLength (formatOf op) ∧
      i = decodeOp op ((operands ++ rest).getD 0 0) ((operands ++ rest).getD 1 0) := by
  cases bs with
  | nil => cases h
  | cons op tail =>
    rw [decode] at h
    split at h
    case isTrue => cases h
    case isFalse hlen =>
      cases h
      have hpos := formatLength_pos (formatOf op)
      refine ⟨op, tail.take (formatLength (formatOf op) - 1), ?_, ?_, ?_⟩
      · rw [List.take_append_drop]
      · rw [List.length_take]; omega
      · rw [List.take_append_drop]

/-- The two bytes after the opcode, cut to the length of the operand, are the operand bytes. -/
theorem take_first_two {operands : List Byte} (h : operands.length ≤ 2) (rest : List Byte) :
    [(operands ++ rest).getD 0 0, (operands ++ rest).getD 1 0].take operands.length = operands := by
  match operands, h with
  | [], _ | [_], _ | [_, _], _ => rfl

/-- But for BRK, an instruction decoded is encoded as the bytes read. -/
theorem encode_of_decodeOp {op : Byte} {operands rest : List Byte} {i : Instr}
    (hi : i = decodeOp op ((operands ++ rest).getD 0 0) ((operands ++ rest).getD 1 0))
    (hlen : operands.length + 1 = formatLength (formatOf op)) (hbrk : i ≠ .brk) : encode i = some (op :: operands) := by
  have hformat : i.format = formatOf op := hi ▸ decodeOp_format op _ _
  have hop : i.opcode = some op := hi ▸ decodeOp_opcode op _ _
  have hne : formatOf op ≠ .brk := fun h => hbrk (eq_brk_of_format (hformat.trans h))
  have hle := formatLength_le_three (formatOf op)
  rw [encode_of_opcode hop, hi, instrOperandBytes_decodeOp, Format.writtenBytes_eq_take hne, ← hlen, Nat.add_sub_cancel,
    take_first_two (by omega)]

/-- Settles O11: the opcode's entry in the map reads the instruction back from its operand bytes. -/
theorem decodeOfEncode : Obligations.DecodeOfEncode := by
  intro i hwf
  obtain ⟨op, hop⟩ := (wellFormed_iff_opcode i).mp hwf
  have hread : ReadsBack op (instrOperandBytes i) i := readsBack_opcode hop
  have hformat : formatOf op = i.format := by rw [← decodeOp_format op, hread []]
  refine ⟨op :: instrOperandBytes i, encode_of_opcode hop, instrOperandBytes_length i, fun rest => ?_⟩
  rw [List.cons_append, decode_cons_append (hformat ▸ instrOperandBytes_length i), hread rest]

/-- Settles O12: the byte decoded is the opcode the instruction is encoded with, and the operand bytes are those of its
format. -/
theorem encodeOfDecode : Obligations.EncodeOfDecode := by
  intro bs rest i h
  obtain ⟨op, operands, rfl, hlen, hi⟩ := exists_operands_of_decode h
  have hop : i.opcode = some op := hi ▸ decodeOp_opcode op _ _
  have hformat : i.format = formatOf op := hi ▸ decodeOp_format op _ _
  refine ⟨(wellFormed_iff_opcode i).mpr ⟨op, hop⟩, op :: operands, rfl, ?length, ?brk, encode_of_decodeOp hi hlen⟩
  case length => rw [instrLength, hformat]; exact hlen
  case brk =>
    rintro rfl
    obtain rfl : 0x00 = op := Option.some_inj.mp hop
    obtain ⟨sig, rfl⟩ := List.length_eq_one_iff.mp (Nat.succ_inj.mp hlen)
    exact ⟨sig, rfl⟩

/-- Settles O13: each word is decoded by the map's entry for its first byte. -/
theorem opcodeWordsDecode : Obligations.OpcodeWordsDecode :=
  ⟨rfl, rfl, rfl, rfl, rfl, rfl, rfl, rfl, rfl, rfl, rfl⟩

/-- An undefined opcode is of format `imp`, so it is decoded alone (R97). -/
theorem decode_undefined {op : Byte} (h : op ∈ undefinedOpcodes) (rest : List Byte) :
    decode (op :: rest) = .ok (.undef op, rest) := by
  have hrow : opcodeRow op = none := (opcodeRow_eq_none_iff op).mpr h
  have hformat : formatOf op = .imp := by rw [formatOf, hrow]
  have hread := decode_cons_append (op := op) (operands := []) (by rw [hformat]; rfl) rest
  rwa [decodeOp_of_row_none hrow] at hread

/-- Only an undefined opcode is decoded to UNDEF, since what is decoded is encoded with the byte read. -/
theorem mem_undefinedOpcodes_of_decode {op b : Byte} {bs rest : List Byte} (h : decode (op :: bs) = .ok (.undef b, rest)) :
    op ∈ undefinedOpcodes := by
  obtain ⟨op', operands, hbs, -, hi⟩ := exists_operands_of_decode h
  obtain ⟨rfl, -⟩ := List.cons.inj hbs
  exact ((Instr.opcode_undef_eq_some_iff b op).mp (hi ▸ decodeOp_opcode op _ _)).2

/-- R97 lists the bytes in increasing order. -/
theorem undefinedOpcodes_pairwise_lt : undefinedOpcodes.Pairwise (· < ·) := by decide

/-- Settles O14: UNDEF's bytes are the places of the map without an entry, and what is decoded is encoded with its byte. -/
theorem undefinedOpcodesDecode : Obligations.UndefinedOpcodesDecode :=
  ⟨rfl, undefinedOpcodes_pairwise_lt.imp BitVec.ne_of_lt, fun _ _ => rfl, fun _ rest =>
    ⟨fun h => decode_undefined h rest, fun h _ _ hdec => h (mem_undefinedOpcodes_of_decode hdec)⟩⟩

end Sys2Proof
end

/-! ### The address resolver: effective addresses, pointer reads and the byte operand (R121 to R134) -/
section
namespace Sys2Proof.Machine
open Sys2Proof.Claims

/-- Indexing in page 0 stays in page 0 (R126, R127, R130). -/
theorem zext16_add_toNat (b v : Byte) : (zext16 (b + v)).toNat = (b.toNat + v.toNat) % 256 := by
  rw [zext16_toNat, BitVec.toNat_add]

/-- The address after a pointer's first byte is again in page 0 (R130, R131). -/
theorem zext16_add_one_toNat (b : Byte) : (zext16 (b + 1)).toNat = (b.toNat + 1) % 256 :=
  zext16_add_toNat b 1

/-- Indexing a 16-bit base wraps at the end of the address space (R129, R131). -/
theorem add_zext16_toNat (w : Addr) (v : Byte) : (w + zext16 v).toNat = (w.toNat + v.toNat) % 65536 := by
  rw [BitVec.toNat_add, zext16_toNat]

/-- A word read is two consecutive reads, which change the record only, and the little-endian word they make (R19). -/
theorem State.read16_pairRead (s : State) (p q : Addr) : PairRead p q (s.read16 p q).1 s (s.read16 p q).2 := by
  refine ⟨s.answer p, (s.memRead p).2.answer q, ?state, ?word, s.answer_plain p, (s.memRead p).2.answer_plain q⟩
  case state => rw [← State.read16_port]; rfl
  case word => rw [State.read16_fst, joinBytes_toNat, Nat.add_comm]

/-- The pointer of an indexed indirect operand stands in page 0, at the operand plus X (R130). -/
theorem State.resolve_izx_pairRead (s : State) (b : Byte) :
    ∃ p q : Addr, p.toNat = (b.toNat + s.x.toNat) % 256 ∧ q.toNat = (b.toNat + s.x.toNat + 1) % 256 ∧
      PairRead p q (s.resolve (.izx b)).1 s (s.resolve (.izx b)).2 := by
  refine ⟨_, _, zext16_add_toNat b s.x, ?_, s.read16_pairRead _ _⟩
  rw [zext16_add_one_toNat, BitVec.toNat_add, Nat.mod_add_mod]

/-- The pointer of an indirect indexed operand stands in page 0, at the operand, and Y is added to the word there (R131). -/
theorem State.resolve_izy_pairRead (s : State) (b : Byte) :
    ∃ p q ptr : Addr, p.toNat = b.toNat ∧ q.toNat = (b.toNat + 1) % 256 ∧
      (s.resolve (.izy b)).1.toNat = (ptr.toNat + s.y.toNat) % 65536 ∧ PairRead p q ptr s (s.resolve (.izy b)).2 :=
  ⟨_, _, _, zext16_toNat b, zext16_add_one_toNat b, add_zext16_toNat _ s.y, s.read16_pairRead _ _⟩

/-- Settles O20, mode by mode: the direct modes only compute, the indirect ones read a pointer. -/
theorem effectiveAddresses : Obligations.EffectiveAddresses := by
  intro s b w
  refine ⟨⟨?zp, rfl⟩, ⟨?zpx, rfl⟩, ⟨?zpy, rfl⟩, ⟨rfl, rfl⟩, ⟨?abx, rfl⟩, ⟨?aby, rfl⟩, ?izx, ?izy⟩
  case zp => exact zext16_toNat b
  case zpx => exact zext16_add_toNat b s.x
  case zpy => exact zext16_add_toNat b s.y
  case abx => exact add_zext16_toNat w s.x
  case aby => exact add_zext16_toNat w s.y
  case izx => exact s.resolve_izx_pairRead b
  case izy => exact s.resolve_izy_pairRead b

/-- Resolution changes the port's record only (R134). -/
theorem State.resolve_snd (s : State) (m : MemMode) : (s.resolve m).2 = { s with port := (s.resolve m).2.port } := by
  cases m <;> rfl

/-- A memory operand is what the port answers at the effective address, after the pointer reads (R121). -/
theorem State.loadOperand_mem_fst (s : State) (m : MemMode) :
    (s.loadOperand (.mem m)).1 = (s.resolve m).2.answer (s.resolve m).1 := rfl

/-- Loading a memory operand adds one read at the effective address to the record of resolution, and changes nothing else. -/
theorem State.loadOperand_mem_snd (s : State) (m : MemMode) :
    (s.loadOperand (.mem m)).2 = { s with port :=
      (s.resolve m).2.port ++ [.read (s.resolve m).1 (s.loadOperand (.mem m)).1] } :=
  congrArg (fun t : State => t.record (.read (s.resolve m).1 (s.loadOperand (.mem m)).1)) (s.resolve_snd m)

/-- Settles O21: resolution changes neither `PlainRam` nor a byte, so the one read is answered from the memory of `s`. -/
theorem operandIsReadOnce : Obligations.OperandIsReadOnce := by
  refine fun s => ⟨fun b => rfl, fun m => ⟨fun hplain => ?value, s.loadOperand_mem_snd m⟩⟩
  case value =>
    rw [State.loadOperand_mem_fst, State.answer_plain _ _ (by rwa [State.resolve_plain]), State.resolve_peek]

end Sys2Proof.Machine
end

/-! ### The encoding lines: an instruction's opcode and operand bytes are its encoding (R90 to R94) -/
section
namespace Sys2Proof
open Sys2Proof.Claims

/-- The decoder reads back what the encoder writes, so the opcode settles an instruction's encoding both ways. -/
theorem encodes_of_opcode {i : Instr} {op : Byte} (h : i.opcode = some op) : Encodes i (op :: instrOperandBytes i) := by
  obtain ⟨bs, hencode, -, hdecode⟩ := decodeOfEncode i ((wellFormed_iff_opcode i).mpr ⟨op, h⟩)
  obtain rfl : bs = op :: instrOperandBytes i := Option.some_inj.mp (hencode.symm.trans (encode_of_opcode h))
  exact ⟨hencode, hdecode⟩

theorem encodesByte_of_opcode {f : Byte → Instr} {op : Byte} (hop : ∀ b, (f b).opcode = some op)
    (hbytes : ∀ b, instrOperandBytes (f b) = [b]) : EncodesByte f op :=
  fun b => hbytes b ▸ encodes_of_opcode (hop b)

/-- A word operand is encoded low byte first (R19, R93). -/
theorem encodesWord_of_opcode {f : Addr → Instr} {op : Byte} (hop : ∀ w, (f w).opcode = some op)
    (hbytes : ∀ w, instrOperandBytes (f w) = [loByte w, hiByte w]) : EncodesWord f op := by
  intro lo hi
  have hencodes := encodes_of_opcode (hop (joinBytes hi lo))
  rwa [hbytes, loByte_joinBytes, hiByte_joinBytes] at hencodes

/-- An instruction on an operand whose opcodes are a line of the eight accumulator modes is encoded mode by mode as that line
says. -/
theorem accumulatorEncoding_of_instrOpcodes {f : Operand → Instr} {imm zp zpx abs abx aby izx izy : Byte}
    (hformat : ∀ o, (f o).format = o.format) (hbytes : ∀ o, instrOperandBytes (f o) = operandBytes o)
    (hcodes : ∀ o, instrOpcodes (f o) = accumulatorOpcodes imm zp zpx abs abx aby izx izy) :
    AccumulatorEncoding f imm zp zpx abs abx aby izx izy := by
  have hopcode (o : Operand) :
      (f o).opcode = lookupOpcode o.format (accumulatorOpcodes imm zp zpx abs abx aby izx izy) := by
    rw [Instr.opcode, hformat, hcodes]
  refine ⟨?imm, ?zp, ?zpx, ?abs, ?abx, ?aby, ?izx, ?izy⟩
  case imm | zp | zpx | izx | izy => exact encodesByte_of_opcode (fun _ => hopcode _) (fun _ => hbytes _)
  case abs | abx | aby => exact encodesWord_of_opcode (fun _ => hopcode _) (fun _ => hbytes _)

end Sys2Proof
end

/-! ### ORA, AND and EOR (R150 to R152) -/
section
namespace Sys2Proof.Machine
open Sys2Proof.Claims

/-- N is bit 7 of the byte the flags were written from, and Z says whether it is 0 (R19). -/
theorem nzFrom_of_sr {t : State} {p : Flags} {v : Byte} (h : t.sr = p.withNZ v) : NZFrom v t := by
  refine ⟨?n, ?z⟩
  case n => rw [h, Flags.withNZ_n]; exact BitVec.msb_eq_getLsbD_last v
  case z => rw [h, Flags.withNZ_z, decide_eq_true_iff]

/-- Writing N and Z leaves the other flags. -/
theorem Flags.withNZ_get (p : Flags) (v : Byte) {f : FlagName} (hf : f ∉ [FlagName.negative, FlagName.zero]) :
    (p.withNZ v).get f = p.get f := by
  cases f with
  | negative | zero => simp at hf
  | _ => rfl

/-- A logical operation writes A, N and Z alone. -/
theorem State.logic_changes (s : State) (o : Operand) (g : Byte → Byte → Byte) :
    Changes [.a] [.negative, .zero] [] s (s.logic o g) := by
  refine ⟨?regs, ?flags, fun c _ => s.logic_peek o g c, s.logic_devices o g, s.logic_stepNo o g⟩
  case regs =>
    intro r hr
    cases r with
    | a => simp at hr
    | x => exact s.logic_x o g
    | y => exact s.logic_y o g
    | sp => exact s.logic_sp o g
  case flags =>
    intro f hf
    rw [State.logic_sr, Flags.withNZ_get _ _ hf]

/-- An instruction that leaves the state of a logical operation follows its rule. -/
theorem logicRule_of_after {f : Operand → Instr} {g : Byte → Byte → Byte} (h : ∀ o s, State.after s (f o) = s.logic o g) :
    LogicRule f g := by
  intro o s
  refine ⟨s.logic o g, ?exec, s.logic_a o g, ?nz, s.logic_pc o g, s.logic_port o g, s.logic_changes o g⟩
  case exec => rw [exec_eq_after, h]
  case nz => exact nzFrom_of_sr (by rw [State.logic_a, State.logic_sr])

/-- Settles O22: each of the three is the shared logical operation of its function, with a line of the eight accumulator
modes. -/
theorem logicalOperations : Obligations.LogicalOperations := by
  refine ⟨?oraEncoding, ?ora, ?andEncoding, ?and, ?eorEncoding, ?eor⟩
  case oraEncoding | andEncoding | eorEncoding =>
    exact accumulatorEncoding_of_instrOpcodes (fun _ => rfl) (fun _ => rfl) (fun _ => rfl)
  case ora | and | eor => exact logicRule_of_after (fun _ _ => rfl)

end Sys2Proof.Machine
end

/-! ### The shared sum operation of ADC and SBC: what it writes and what it leaves (R161, R165) -/
section
namespace Sys2Proof.Machine
open Sys2Proof.Claims

@[simp] theorem Flags.withSum_c (p : Flags) (q : SumResult) : (p.withSum q).c = q.c := rfl
@[simp] theorem Flags.withSum_v (p : Flags) (q : SumResult) : (p.withSum q).v = q.v := rfl

/-- A sum sets C and V, and N and Z as any result byte does. -/
theorem Flags.withSum_eq_withNZ (p : Flags) (q : SumResult) : p.withSum q = { p with c := q.c, v := q.v }.withNZ q.r := rfl

/-- A sum leaves I, D and B. -/
theorem Flags.withSum_get (p : Flags) (q : SumResult) {f : FlagName}
    (hf : f ∉ [FlagName.negative, FlagName.overflow, FlagName.zero, FlagName.carry]) : (p.withSum q).get f = p.get f := by
  cases f with
  | negative | overflow | zero | carry => simp at hf
  | _ => rfl

variable (s : State) (o : Operand) (f : Flags → Nat → Byte → Byte → SumResult)

/-- A sum writes A, N, V, Z and C alone. -/
theorem State.accumulate_changes :
    Changes [.a] [.negative, .overflow, .zero, .carry] [] s (s.accumulate o f) := by
  refine ⟨?regs, ?flags, fun c _ => s.accumulate_peek o f c, s.accumulate_devices o f, s.accumulate_stepNo o f⟩
  case regs =>
    intro r hr
    cases r with
    | a => simp at hr
    | x => exact s.accumulate_x o f
    | y => exact s.accumulate_y o f
    | sp => exact s.accumulate_sp o f
  case flags =>
    intro g hg
    rw [State.accumulate_sr, Flags.withSum_get _ _ hg]

theorem State.accumulate_nzFrom : NZFrom (s.accumulate o f).a (s.accumulate o f) := by
  rw [State.accumulate_a]
  exact nzFrom_of_sr (by rw [State.accumulate_sr, Flags.withSum_eq_withNZ])

end Sys2Proof.Machine
end

/-! ### Binary sums and differences: result, carry and overflow (R162, R166) -/
section
namespace Sys2Proof.Machine

theorem SumResult.ext {p q : SumResult} (hr : p.r = q.r) (hc : p.c = q.c) (hv : p.v = q.v) : p = q := by
  cases p; cases q; cases hr; cases hc; cases hv; rfl

/-- Bit 7 of `x ^^^ y` is clear exactly when `x` and `y` have the same sign. -/
theorem xor_and_0x80_eq_zero_iff (x y : Byte) :
    (x ^^^ y) &&& 0x80 = 0 ↔ (x.toNat < 0x80 ↔ y.toNat < 0x80) := by
  have hbit : (x ^^^ y) &&& 0x80 = if (x ^^^ y).msb then 0x80 else 0 := BitVec.and_twoPow (x ^^^ y) 7
  rw [hbit, BitVec.msb_xor, ← byte_msb_eq_false_iff, ← byte_msb_eq_false_iff]
  cases x.msb <;> cases y.msb <;> decide

variable (a m : Byte) (cin : Bool)

theorem addBinary_r_toNat : (addBinary a m cin).r.toNat = (a.toNat + m.toNat + cin.toNat) % 256 := rfl

theorem addBinary_v : (addBinary a m cin).v =
    decide ((a ^^^ m) &&& 0x80 = 0 ∧ (a ^^^ (addBinary a m cin).r) &&& 0x80 ≠ 0) :=
  (Bool.decide_and _ _).symm

/-- The signed sum leaves the range of a byte exactly when operands of one sign give a result of the other (R162). -/
theorem addBinary_v_eq_signed : (addBinary a m cin).v =
    decide (a.toInt + m.toInt + cin.toNat < -128 ∨ 127 < a.toInt + m.toInt + cin.toNat) := by
  rw [addBinary_v, decide_eq_decide, ne_eq, xor_and_0x80_eq_zero_iff, xor_and_0x80_eq_zero_iff, addBinary_r_toNat,
    BitVec.toInt_eq_toNat_cond, BitVec.toInt_eq_toNat_cond]
  have hcin := cin.toNat_le
  omega

theorem subBinary_r_toNat :
    ((subBinary a m cin).r.toNat : Int) = ((a.toNat : Int) - m.toNat - (1 - cin.toNat)) % 256 :=
  (congrArg Int.ofNat (BitVec.toNat_ofInt _)).trans (Int.toNat_of_nonneg (Int.emod_nonneg _ (by decide)))

theorem subBinary_v : (subBinary a m cin).v =
    decide ((a ^^^ m) &&& 0x80 ≠ 0 ∧ (a ^^^ (subBinary a m cin).r) &&& 0x80 ≠ 0) :=
  (Bool.decide_and _ _).symm

theorem byte_not_toNat : (~~~m).toNat = 255 - m.toNat := BitVec.toNat_not

/-- In two's complement, `-1 - m` is the complement of `m`. -/
theorem byte_not_toInt : (~~~m).toInt = -1 - m.toInt := by
  rw [BitVec.toInt_eq_toNat_cond, BitVec.toInt_eq_toNat_cond, byte_not_toNat]
  omega

/-- The difference with borrow is 256 less than the sum with the complement, so the results agree modulo 256, and there is
no borrow exactly when that sum carries (R166). -/
theorem subBinary_eq_addBinary_not : subBinary a m cin = addBinary a (~~~m) cin := by
  have hm := byte_not_toNat m
  have hr : (subBinary a m cin).r = (addBinary a (~~~m) cin).r := by
    have hsub := subBinary_r_toNat a m cin
    have hadd := addBinary_r_toNat a (~~~m) cin
    apply BitVec.eq_of_toNat_eq
    omega
  have hc : (subBinary a m cin).c = (addBinary a (~~~m) cin).c := by
    simp only [subBinary, addBinary, decide_eq_decide]
    omega
  have hv : (subBinary a m cin).v = (addBinary a (~~~m) cin).v := by
    have hsign : (a ^^^ m) &&& 0x80 ≠ 0 ↔ (a ^^^ ~~~m) &&& 0x80 = 0 := by
      rw [ne_eq, xor_and_0x80_eq_zero_iff, xor_and_0x80_eq_zero_iff]; omega
    rw [subBinary_v, addBinary_v, hr, decide_eq_decide, hsign]
  exact SumResult.ext hr hc hv

/-- The overflow of a difference is that of the sum with the complement (R166). -/
theorem subBinary_v_eq_signed : (subBinary a m cin).v =
    decide (a.toInt - m.toInt - (1 - cin.toNat) < -128 ∨ 127 < a.toInt - m.toInt - (1 - cin.toNat)) := by
  have hsum : a.toInt + (~~~m).toInt + cin.toNat = a.toInt - m.toInt - (1 - cin.toNat) := by
    rw [byte_not_toInt]; omega
  rw [subBinary_eq_addBinary_not, addBinary_v_eq_signed, hsum]

end Sys2Proof.Machine
end

/-! ### Decimal sums and differences on packed operands: digit by digit (R163, R167) -/
section
namespace Sys2Proof.Machine
open Sys2Proof.Claims

theorem isPackedBcd_iff (b : Byte) : isPackedBcd b = true ↔ Packed b := by
  rw [isPackedBcd, Bool.and_eq_true, decide_eq_true_iff, decide_eq_true_iff, and_comm]; rfl

theorem dec_eq_nibbles (b : Byte) : dec b = 10 * hiNibble b + loNibble b := rfl

/-- A digit sum above 9 is moved up by 6, so that its nibble is the decimal digit. -/
theorem adjustUp_nibble {t : Nat} (h : t ≤ 19) : (if t > 9 then t + 6 else t) % 16 = t % 10 := by
  split <;> omega

/-- A digit sum moved up has left its nibble exactly when there is a decimal carry. -/
theorem adjustUp_carry {t : Nat} (h : t ≤ 19) :
    (if (if t > 9 then t + 6 else t) > 0x0F then 1 else 0) = t / 10 := by
  split <;> split <;> omega

/-- A negative digit difference is moved down by 6, so that its nibble is the decimal digit. -/
theorem adjustDown_nibble {t : Int} (hlo : -10 ≤ t) (hhi : t ≤ 9) : (if t < 0 then t - 6 else t) % 16 = t % 10 := by
  split <;> omega

/-- A negative digit difference borrows from the next digit. -/
theorem adjustDown_borrow {t : Int} (hlo : -10 ≤ t) (hhi : t ≤ 9) : (if t < 0 then 1 else 0 : Int) = -(t / 10) := by
  split <;> omega

section
variable {a m : Byte} (ha : Packed a) (hm : Packed m) (cin : Bool)
include ha hm

/-- On packed operands the adjusted nibbles are the two digits of the decimal sum, and its hundreds are the carry (R163). -/
theorem addPackedBcd_eq : addPackedBcd a m cin =
    (bcd ((dec a + dec m + cin.toNat) % 100), decide (dec a + dec m + cin.toNat ≥ 100)) := by
  obtain ⟨hahi : hiNibble a ≤ 9, halo : loNibble a ≤ 9⟩ := ha
  obtain ⟨hmhi : hiNibble m ≤ 9, hmlo : loNibble m ≤ 9⟩ := hm
  have hcin := cin.toNat_le
  simp (disch := omega) only [addPackedBcd, adjustUp_carry, adjustUp_nibble, dec_eq_nibbles]
  refine Prod.ext (congrArg (BitVec.ofNat 8) ?digits) (decide_eq_decide.mpr ?carry) <;> omega

/-- On packed operands the adjusted nibbles are the two digits of the decimal difference, and C is clear exactly when it
borrows (R167). -/
theorem subPackedBcd_eq : subPackedBcd a m cin =
    (bcd (((dec a : Int) - dec m - (1 - cin.toNat)) % 100).toNat, decide ((dec a : Int) - dec m - (1 - cin.toNat) ≥ 0)) := by
  obtain ⟨hahi : hiNibble a ≤ 9, halo : loNibble a ≤ 9⟩ := ha
  obtain ⟨hmhi : hiNibble m ≤ 9, hmlo : loNibble m ≤ 9⟩ := hm
  have hcin := cin.toNat_le
  simp (disch := omega) only [subPackedBcd, adjustDown_borrow, adjustDown_nibble, dec_eq_nibbles]
  rw [bcd, ← BitVec.ofInt_natCast]
  refine Prod.ext (congrArg (BitVec.ofInt 8) ?digits) (decide_eq_decide.mpr ?borrow) <;> omega

theorem addDecimal_of_packed : addDecimal a m cin = addPackedBcd a m cin := by
  rw [addDecimal, (isPackedBcd_iff a).mpr ha, (isPackedBcd_iff m).mpr hm]; rfl

theorem subDecimal_of_packed : subDecimal a m cin = subPackedBcd a m cin := by
  rw [subDecimal, (isPackedBcd_iff a).mpr ha, (isPackedBcd_iff m).mpr hm]; rfl

end

section
variable {a m : Byte} (h : ¬(Packed a ∧ Packed m)) (cin : Bool)
include h

theorem addDecimal_of_not_packed : addDecimal a m cin = Config.bcdAddNonBcd a m cin :=
  if_neg (by rwa [Bool.and_eq_true, isPackedBcd_iff, isPackedBcd_iff])

theorem subDecimal_of_not_packed : subDecimal a m cin = Config.bcdSubNonBcd a m cin :=
  if_neg (by rwa [Bool.and_eq_true, isPackedBcd_iff, isPackedBcd_iff])

end

end Sys2Proof.Machine
end

/-! ### ADC and SBC (R160 to R167) -/
section
namespace Sys2Proof.Machine
open Sys2Proof.Claims

theorem adcResult_binary {p : Flags} (h : p.d = false) (k : Nat) (a m : Byte) : adcResult p k a m = addBinary a m p.c := by
  rw [adcResult, h]; rfl

theorem adcResult_decimal {p : Flags} (h : p.d = true) (k : Nat) (a m : Byte) :
    adcResult p k a m = ⟨(addDecimal a m p.c).1, (addDecimal a m p.c).2, Config.decimalV k⟩ := by
  rw [adcResult, h]; rfl

theorem sbcResult_binary {p : Flags} (h : p.d = false) (k : Nat) (a m : Byte) : sbcResult p k a m = subBinary a m p.c := by
  rw [sbcResult, h]; rfl

theorem sbcResult_decimal {p : Flags} (h : p.d = true) (k : Nat) (a m : Byte) :
    sbcResult p k a m = ⟨(subDecimal a m p.c).1, (subDecimal a m p.c).2, Config.decimalV k⟩ := by
  rw [sbcResult, h]; rfl

/-- Settles O23: ADC is the shared sum operation of its result; D picks the binary sum or the decimal one, and the operands
pick between the packed digits and the free function. -/
theorem adcAddsWithCarry : Obligations.AdcAddsWithCarry := by
  refine ⟨accumulatorEncoding_of_instrOpcodes (fun _ => rfl) (fun _ => rfl) (fun _ => rfl), fun o s => ?_⟩
  refine ⟨s.accumulate o adcResult, exec_eq_after _ _, s.accumulate_nzFrom o _, s.accumulate_pc o _, s.accumulate_port o _,
    s.accumulate_changes o _, ?_⟩
  rw [State.accumulate_a, State.accumulate_sr, Flags.withSum_c, Flags.withSum_v]
  refine ⟨fun hd => ?binary, fun hd => ?overflow, fun hd ⟨ha, hm⟩ => ?packed, fun hd hother => ?other⟩
  case binary =>
    rw [adcResult_binary hd]
    exact ⟨addBinary_r_toNat _ _ _, rfl, addBinary_v _ _ _, addBinary_v_eq_signed _ _ _⟩
  case overflow => rw [adcResult_decimal hd]
  case packed =>
    rw [adcResult_decimal hd, addDecimal_of_packed ha hm, addPackedBcd_eq ha hm]
    exact ⟨rfl, rfl⟩
  case other => rw [adcResult_decimal hd, addDecimal_of_not_packed hother]

/-- Settles O24: SBC is the shared sum operation of its result; D picks the binary difference or the decimal one, and the
operands pick between the packed digits and the free function. -/
theorem sbcSubtractsWithBorrow : Obligations.SbcSubtractsWithBorrow := by
  refine ⟨accumulatorEncoding_of_instrOpcodes (fun _ => rfl) (fun _ => rfl) (fun _ => rfl), subBinary_eq_addBinary_not,
    fun o s => ?_⟩
  refine ⟨s.accumulate o sbcResult, exec_eq_after _ _, s.accumulate_nzFrom o _, s.accumulate_pc o _, s.accumulate_port o _,
    s.accumulate_changes o _, ?_⟩
  rw [State.accumulate_a, State.accumulate_sr, Flags.withSum_c, Flags.withSum_v]
  refine ⟨fun hd => ?binary, fun hd => ?overflow, fun hd ⟨ha, hm⟩ => ?packed, fun hd hother => ?other⟩
  case binary =>
    rw [sbcResult_binary hd]
    exact ⟨subBinary_r_toNat _ _ _, rfl, subBinary_v _ _ _, subBinary_v_eq_signed _ _ _⟩
  case overflow => rw [sbcResult_decimal hd]
  case packed =>
    rw [sbcResult_decimal hd, subDecimal_of_packed ha hm, subPackedBcd_eq ha hm]
    exact ⟨rfl, rfl⟩
  case other => rw [sbcResult_decimal hd, subDecimal_of_not_packed hother]

end Sys2Proof.Machine
end

/-! ### The shifts' encoding lines: the accumulator and four memory modes (R180) -/
section
namespace Sys2Proof
open Sys2Proof.Claims

/-- An instruction on a target whose opcodes are a line of the five shift modes is encoded mode by mode as that line says. -/
theorem shiftEncoding_of_instrOpcodes {f : Target → Instr} {acc zp zpx abs abx : Byte}
    (hformat : ∀ t, (f t).format = t.format) (hbytes : ∀ t, instrOperandBytes (f t) = targetBytes t)
    (hcodes : ∀ t, instrOpcodes (f t) = shiftOpcodes acc zp zpx abs abx) : ShiftEncoding f acc zp zpx abs abx := by
  have hopcode (t : Target) : (f t).opcode = lookupOpcode t.format (shiftOpcodes acc zp zpx abs abx) := by
    rw [Instr.opcode, hformat, hcodes]
  refine ⟨?acc, ?zp, ?zpx, ?abs, ?abx⟩
  case acc =>
    have hencodes := encodes_of_opcode (hopcode .acc)
    rw [hbytes] at hencodes
    exact hencodes
  case zp | zpx => exact encodesByte_of_opcode (fun _ => hopcode _) (fun _ => hbytes _)
  case abs | abx => exact encodesWord_of_opcode (fun _ => hopcode _) (fun _ => hbytes _)

end Sys2Proof
end

/-! ### The shared shift operation: what it writes and what it leaves, on the accumulator and on memory (R180) -/
section
namespace Sys2Proof.Machine
open Sys2Proof.Claims

variable (s : State) (g : Byte → Bool → Byte × Bool)

/-- A shift leaves V, I, D and B. -/
theorem State.shift_flagsKept (t : Target) : FlagsKeptBut [.negative, .zero, .carry] s (s.shift t g) := by
  intro f hf
  cases f with
  | negative | zero | carry => simp at hf
  | interruptDisable => exact s.shift_sr_i t g
  | decimal => exact s.shift_sr_d t g
  | overflow => exact s.shift_sr_v t g
  | _ => exact s.shift_sr_b t g

/-- A shift leaves X, Y and SP. -/
theorem State.shift_reg (t : Target) {r : RegName} (hr : r ≠ .a) : (s.shift t g).reg r = s.reg r := by
  cases r with
  | a => exact absurd rfl hr
  | x => exact s.shift_x t g
  | y => exact s.shift_y t g
  | sp => exact s.shift_sp t g

/-- On the accumulator a shift writes A, N, Z and C alone. -/
theorem State.shift_acc_changes : Changes [.a] [.negative, .zero, .carry] [] s (s.shift .acc g) :=
  ⟨fun _ hr => s.shift_reg g .acc (by simpa using hr), s.shift_flagsKept g .acc, fun _ _ => rfl, rfl, rfl⟩

/-- On memory a shift writes the byte at the effective address, N, Z and C alone. -/
theorem State.shift_mem_changes (m : MemMode) :
    Changes [] [.negative, .zero, .carry] [(s.resolve m).1] s (s.shift (.mem m) g) := by
  refine ⟨?regs, s.shift_flagsKept g _, ?mem, s.shift_devices _ g, s.shift_stepNo _ g⟩
  case regs =>
    intro r _
    cases r with
    | a => exact s.shift_mem_a m g
    | x | y | sp => exact s.shift_reg g _ nofun
  case mem =>
    intro c hc
    rw [State.shift_mem_peek, if_neg (fun h => hc (List.mem_singleton.mpr h.1))]

/-- A memory shift stores its result at the effective address. -/
theorem State.shift_mem_stored (m : MemMode) :
    Stored (s.resolve m).1 (g ((s.resolve m).2.memRead (s.resolve m).1).1 s.sr.c).1 s (s.shift (.mem m) g) := by
  refine ⟨fun hplain => ?plain, fun hdevice => ?device⟩
  case plain => rw [State.shift_mem_peek, if_pos ⟨rfl, hplain⟩]
  case device => rw [State.shift_mem_peek, if_neg (by simp [hdevice])]

end Sys2Proof.Machine
end

/-! ### The results of the shifts and rotates as numbers (R181 to R184) -/
section
namespace Sys2Proof.Machine

/-- The inclusive or of bytes with no bit in common is their sum. -/
theorem byte_or_toNat_of_disjoint {x y : Byte} (h : x &&& y = 0) : (x ||| y).toNat = x.toNat + y.toNat := by
  rw [← BitVec.add_eq_or_of_and_eq_zero _ _ h, BitVec.toNat_add_of_and_eq_zero h]

variable (m : Byte) (cin : Bool)

theorem byte_shiftLeft_one_toNat : (m <<< 1).toNat = 2 * m.toNat % 256 := by
  rw [BitVec.toNat_shiftLeft, Nat.shiftLeft_eq, Nat.mul_comm]

theorem byte_ushiftRight_one_toNat : (m >>> 1).toNat = m.toNat / 2 := by
  rw [BitVec.toNat_ushiftRight, Nat.shiftRight_eq_div_pow]

/-- Shifting left empties bit 0, where ROL puts the previous carry (R183). -/
theorem byte_shiftLeft_one_and_bit0 : m <<< 1 &&& 0x01 = 0 :=
  (BitVec.and_twoPow (m <<< 1) 0).trans (if_neg (by simp))

/-- Shifting right empties bit 7, where ROR puts the previous carry (R184). -/
theorem byte_bit7_and_ushiftRight_one : 0x80 &&& m >>> 1 = 0 :=
  (BitVec.and_comm _ _).trans ((BitVec.and_twoPow (m >>> 1) 7).trans (if_neg (by simp)))

theorem aslResult_toNat : (aslResult m cin).1.toNat = 2 * m.toNat % 256 := byte_shiftLeft_one_toNat m

theorem lsrResult_toNat : (lsrResult m cin).1.toNat = m.toNat / 2 := byte_ushiftRight_one_toNat m

theorem rolResult_toNat : (rolResult m cin).1.toNat = (2 * m.toNat + cin.toNat) % 256 := by
  cases cin with
  | false => exact (congrArg BitVec.toNat BitVec.or_zero).trans (byte_shiftLeft_one_toNat m)
  | true =>
    have hsum : (rolResult m true).1.toNat = (m <<< 1).toNat + 1 :=
      byte_or_toNat_of_disjoint (byte_shiftLeft_one_and_bit0 m)
    rw [hsum, byte_shiftLeft_one_toNat, Bool.toNat_true]
    omega

theorem rorResult_toNat : (rorResult m cin).1.toNat = 128 * cin.toNat + m.toNat / 2 := by
  rw [← byte_ushiftRight_one_toNat]
  cases cin with
  | false => exact (congrArg BitVec.toNat BitVec.zero_or).trans (Nat.zero_add _).symm
  | true => exact byte_or_toNat_of_disjoint (byte_bit7_and_ushiftRight_one m)

end Sys2Proof.Machine
end

/-! ### ASL, LSR, ROL and ROR (R180 to R184) -/
section
namespace Sys2Proof.Machine
open Sys2Proof.Claims

/-- An instruction that leaves the state of a shift by `g` follows the rule of the numbers `g` computes. -/
theorem shiftRule_of_after {f : Target → Instr} {g : Byte → Bool → Byte × Bool} {r : Nat → Nat → Nat} {out : Nat}
    (hafter : ∀ t s, State.after s (f t) = s.shift t g) (hresult : ∀ m c, (g m c).1.toNat = r m.toNat c.toNat)
    (hout : ∀ m c, (g m c).2 = m.getLsbD out) : ShiftRule f r out := by
  have hexec (t : Target) (s : State) : exec (f t) s = .next (s.shift t g) := by rw [exec_eq_after, hafter]
  refine fun s => ⟨?acc, fun m => ?mem⟩
  case acc =>
    exact ⟨s.shift .acc g, hexec .acc s, hresult _ _, hout _ _, nzFrom_of_sr (p := { s.sr with c := _ }) rfl, rfl, rfl,
      s.shift_acc_changes g⟩
  case mem =>
    refine ⟨s.shift (.mem m) g, _, hexec _ s, hresult _ _, s.shift_mem_stored g m, ?carry, ?nz, s.shift_pc _ g,
      s.shift_mem_port m g, s.shift_mem_changes g m⟩
    case carry => rw [State.shift_mem_sr]; exact hout _ _
    case nz => exact nzFrom_of_sr (p := { s.sr with c := _ }) (s.shift_mem_sr m g)

/-- Settles O25: each of the four is the shared shift operation of its result, with a line of the five shift modes. -/
theorem shiftsAndRotates : Obligations.ShiftsAndRotates := by
  refine ⟨?aslEncoding, ?asl, ?lsrEncoding, ?lsr, ?rolEncoding, ?rol, ?rorEncoding, ?ror⟩
  case aslEncoding | lsrEncoding | rolEncoding | rorEncoding =>
    exact shiftEncoding_of_instrOpcodes (fun _ => rfl) (fun _ => rfl) (fun _ => rfl)
  case asl => exact shiftRule_of_after (fun _ _ => rfl) aslResult_toNat (fun _ _ => rfl)
  case lsr => exact shiftRule_of_after (fun _ _ => rfl) lsrResult_toNat (fun _ _ => rfl)
  case rol => exact shiftRule_of_after (fun _ _ => rfl) rolResult_toNat (fun _ _ => rfl)
  case ror => exact shiftRule_of_after (fun _ _ => rfl) rorResult_toNat (fun _ _ => rfl)

end Sys2Proof.Machine
end

/-! ### The byte after its increment and its decrement, modulo 256 (R194 to R199) -/
section
namespace Sys2Proof

theorem byte_add_one_toNat (v : Byte) : (v + 1).toNat = (v.toNat + 1) % 256 := BitVec.toNat_add v 1

/-- Subtracting 1 modulo 256 is adding 255. -/
theorem byte_sub_one_toNat (v : Byte) : (v - 1).toNat = (v.toNat + 255) % 256 := by
  rw [Nat.add_comm]
  exact BitVec.toNat_sub v 1

end Sys2Proof
end

/-! ### What an operation changes, where it writes the flags after a load, one byte of memory, or one register -/
section
namespace Sys2Proof.Machine
open Sys2Proof.Claims

variable (s : State)

theorem regsKept_of_eq {s t : State} (ha : t.a = s.a) (hx : t.x = s.x) (hy : t.y = s.y) (hsp : t.sp = s.sp) :
    RegsKeptBut [] s t := by
  intro r _
  cases r with
  | a => exact ha
  | x => exact hx
  | y => exact hy
  | sp => exact hsp

/-- Loading an operand and then writing a status that agrees outside the listed flags changes those flags alone. -/
theorem State.loadOperand_setSR_changes (o : Operand) {fs : List FlagName} {p : Flags}
    (hp : ∀ f, f ∉ fs → p.get f = s.sr.get f) : Changes [] fs [] s ((s.loadOperand o).2.setSR p) := by
  refine ⟨?regs, hp, fun c _ => s.loadOperand_peek o c, s.loadOperand_devices o, s.loadOperand_stepNo o⟩
  case regs => exact regsKept_of_eq (s.loadOperand_a o) (s.loadOperand_x o) (s.loadOperand_y o) (s.loadOperand_sp o)

/-- Memory that took one byte, if its address is in `PlainRam`, is memory after a store. -/
theorem stored_of_peek {s t : State} {a : Addr} {v : Byte}
    (h : ∀ c, t.peek c = if c = a ∧ s.plain a = true then v else s.peek c) : Stored a v s t := by
  refine ⟨fun hplain => ?plain, fun hdevice => ?device⟩
  case plain => rw [h, if_pos ⟨rfl, hplain⟩]
  case device => rw [h, if_neg (by simp [hdevice])]

/-- A read-modify-write changes the byte at the effective address, N and Z alone (R121). -/
theorem State.modify_changes (m : MemMode) (g : Byte → Byte) :
    Changes [] [.negative, .zero] [(s.resolve m).1] s (s.modify m g) := by
  refine ⟨?regs, ?flags, ?mem, s.modify_devices m g, s.modify_stepNo m g⟩
  case regs => exact regsKept_of_eq (s.modify_a m g) (s.modify_x m g) (s.modify_y m g) (s.modify_sp m g)
  case flags =>
    intro f hf
    rw [State.modify_sr, Flags.withNZ_get _ _ hf]
  case mem =>
    intro c hc
    rw [State.modify_peek, if_neg (fun h => hc (List.mem_singleton.mpr h.1))]

/-! A register is written by its name as the state port writes it. -/

theorem State.hostSetReg_reg (r q : RegName) (v : Byte) :
    (s.hostSetReg r v).reg q = if q = r then v else s.reg q := by
  cases r <;> cases q <;> rfl

@[simp] theorem State.hostSetReg_pc (r : RegName) (v : Byte) : (s.hostSetReg r v).pc = s.pc := by cases r <;> rfl
@[simp] theorem State.hostSetReg_sr (r : RegName) (v : Byte) : (s.hostSetReg r v).sr = s.sr := by cases r <;> rfl
@[simp] theorem State.hostSetReg_devices (r : RegName) (v : Byte) : (s.hostSetReg r v).devices = s.devices := by
  cases r <;> rfl
@[simp] theorem State.hostSetReg_stepNo (r : RegName) (v : Byte) : (s.hostSetReg r v).stepNo = s.stepNo := by
  cases r <;> rfl
@[simp] theorem State.hostSetReg_port (r : RegName) (v : Byte) : (s.hostSetReg r v).port = s.port := by cases r <;> rfl
@[simp] theorem State.hostSetReg_peek (r : RegName) (v : Byte) (c : Addr) : (s.hostSetReg r v).peek c = s.peek c := by
  cases r <;> rfl

/-- Looking at a register does not see a write of N and Z. -/
theorem State.setNZ_reg (v : Byte) (q : RegName) : (s.setNZ v).reg q = s.reg q := by
  cases q <;> rfl

/-- Writing a register with N and Z from a byte changes that register, N and Z alone. -/
theorem State.hostSetReg_setNZ_changes (r : RegName) (v w : Byte) :
    Changes [r] [.negative, .zero] [] s ((s.hostSetReg r v).setNZ w) := by
  refine ⟨?regs, ?flags, fun c _ => s.hostSetReg_peek r v c, s.hostSetReg_devices r v, s.hostSetReg_stepNo r v⟩
  case regs =>
    intro q hq
    rw [State.setNZ_reg, State.hostSetReg_reg, if_neg (by simpa using hq)]
  case flags =>
    intro f hf
    rw [State.setNZ_sr, State.hostSetReg_sr, Flags.withNZ_get _ _ hf]

end Sys2Proof.Machine
end

/-! ### CMP, CPX and CPY (R190 to R193) -/
section
namespace Sys2Proof.Machine
open Sys2Proof.Claims

/-- A compare leaves V, I, D and B. -/
theorem Flags.compare_get (p : Flags) (v m : Byte) {f : FlagName}
    (hf : f ∉ [FlagName.negative, FlagName.zero, FlagName.carry]) : (p.compare v m).get f = p.get f := by
  cases f with
  | negative | zero | carry => simp at hf
  | _ => rfl

/-! Carry is register at least operand, zero is equality, negative is bit 7 of the difference (R190). -/

theorem Flags.compare_c (p : Flags) (v m : Byte) : (p.compare v m).c = decide (m.toNat ≤ v.toNat) := rfl
theorem Flags.compare_z_iff (p : Flags) (v m : Byte) : (p.compare v m).z = true ↔ v = m := decide_eq_true_iff
theorem Flags.compare_n (p : Flags) (v m : Byte) : (p.compare v m).n = (v - m).getLsbD 7 :=
  BitVec.msb_eq_getLsbD_last (v - m)

/-- A compare writes N, Z and C alone, whatever its operand. -/
theorem State.compareWith_changes (s : State) (v : Byte) (o : Operand) :
    Changes [] [.negative, .zero, .carry] [] s (s.compareWith v o) := by
  apply State.loadOperand_setSR_changes
  intro f hf
  rw [Flags.compare_get _ _ _ hf, State.loadOperand_sr]

/-- An instruction that leaves the state of a compare of register `r` follows the compare's rule. -/
theorem compareRule_of_after {f : Operand → Instr} {r : RegName}
    (h : ∀ o s, State.after s (f o) = s.compareWith (s.reg r) o) : CompareRule f r := by
  intro o s
  refine ⟨s.compareWith (s.reg r) o, ?exec, ?carry, ?zero, ?negative, s.compareWith_pc _ o, s.compareWith_port _ o,
    s.compareWith_changes _ o⟩
  case exec => rw [exec_eq_after, h]
  case carry => rw [State.compareWith_sr, Flags.compare_c]
  case zero => rw [State.compareWith_sr, Flags.compare_z_iff]
  case negative => rw [State.compareWith_sr, Flags.compare_n]

/-- Settles O26: each of the three is the shared compare of its register, encoded as its rule's line says. -/
theorem compares : Obligations.Compares := by
  refine ⟨?cmpEncoding, ?cmp, ⟨?cpxImm, ?cpxZp, ?cpxAbs⟩, ?cpx, ⟨?cpyImm, ?cpyZp, ?cpyAbs⟩, ?cpy⟩
  case cmpEncoding => exact accumulatorEncoding_of_instrOpcodes (fun _ => rfl) (fun _ => rfl) (fun _ => rfl)
  case cpxImm | cpxZp | cpyImm | cpyZp => exact encodesByte_of_opcode (fun _ => rfl) (fun _ => rfl)
  case cpxAbs | cpyAbs => exact encodesWord_of_opcode (fun _ => rfl) (fun _ => rfl)
  case cmp | cpx | cpy => exact compareRule_of_after (fun _ _ => rfl)

end Sys2Proof.Machine
end

/-! ### INC and DEC (R194, R195) -/
section
namespace Sys2Proof.Machine
open Sys2Proof.Claims

/-- An instruction that leaves the state of a read-modify-write by `g` follows the rule of the number `g` adds. -/
theorem incDecMemoryRule_of_after {f : MemMode → Instr} {g : Byte → Byte} {k : Nat}
    (hafter : ∀ m s, State.after s (f m) = s.modify m g) (hresult : ∀ v, (g v).toNat = (v.toNat + k) % 256) :
    IncDecMemoryRule f k := by
  intro m s
  refine ⟨s.modify m g, _, ?exec, hresult _, stored_of_peek (s.modify_peek m g), nzFrom_of_sr (s.modify_sr m g),
    s.modify_pc m g, s.modify_port m g, s.modify_changes m g⟩
  case exec => rw [exec_eq_after, hafter]

/-- Settles O27: both are the shared read-modify-write, adding 1 and 255 modulo 256, encoded as their lines say. -/
theorem memoryIncrements : Obligations.MemoryIncrements := by
  refine ⟨⟨?incZp, ?incZpx, ?incAbs, ?incAbx⟩, ?inc, ⟨?decZp, ?decZpx, ?decAbs, ?decAbx⟩, ?dec⟩
  case incZp | incZpx | decZp | decZpx => exact encodesByte_of_opcode (fun _ => rfl) (fun _ => rfl)
  case incAbs | incAbx | decAbs | decAbx => exact encodesWord_of_opcode (fun _ => rfl) (fun _ => rfl)
  case inc => exact incDecMemoryRule_of_after (fun _ _ => rfl) byte_add_one_toNat
  case dec => exact incDecMemoryRule_of_after (fun _ _ => rfl) byte_sub_one_toNat

end Sys2Proof.Machine
end

/-! ### INX, INY, DEX and DEY (R196 to R199) -/
section
namespace Sys2Proof.Machine
open Sys2Proof.Claims

/-- An instruction that writes `g` of a register back to it, with N and Z from the result, follows the rule of the number `g`
adds. -/
theorem incDecRegisterRule_of_after {i : Instr} {r : RegName} {g : Byte → Byte} {k : Nat}
    (hafter : ∀ s, State.after s i = (s.hostSetReg r (g (s.reg r))).setNZ (g (s.reg r)))
    (hresult : ∀ v, (g v).toNat = (v.toNat + k) % 256) : IncDecRegisterRule i r k := by
  intro s
  have hreg : (s.after i).reg r = g (s.reg r) := by rw [hafter, State.setNZ_reg, State.hostSetReg_reg, if_pos rfl]
  refine ⟨s.after i, exec_eq_after i s, ?value, ?nz, ?pc, ?port, ?changes⟩
  case value => rw [hreg, hresult]
  case nz => rw [hreg]; exact nzFrom_of_sr (by rw [hafter, State.setNZ_sr])
  case pc => rw [hafter, State.setNZ_pc, State.hostSetReg_pc]
  case port => rw [hafter, State.setNZ_port, State.hostSetReg_port]
  case changes => rw [hafter]; exact s.hostSetReg_setNZ_changes r _ _

/-- Settles O28: each of the four writes its register back with 1 or 255 added modulo 256, and has one byte. -/
theorem registerIncrements : Obligations.RegisterIncrements := by
  refine ⟨?inxEncoding, ?inx, ?inyEncoding, ?iny, ?dexEncoding, ?dex, ?deyEncoding, ?dey⟩
  case inxEncoding | inyEncoding | dexEncoding | deyEncoding => exact encodes_of_opcode rfl
  case inx | iny => exact incDecRegisterRule_of_after (fun _ => rfl) byte_add_one_toNat
  case dex | dey => exact incDecRegisterRule_of_after (fun _ => rfl) byte_sub_one_toNat

end Sys2Proof.Machine
end

/-! ### BIT (R200) -/
section
namespace Sys2Proof.Machine
open Sys2Proof.Claims

/-- BIT's flags leave C, I, D and B. -/
theorem Flags.bitTest_get (p : Flags) (a m : Byte) {f : FlagName}
    (hf : f ∉ [FlagName.negative, FlagName.overflow, FlagName.zero]) : (p.bitTest a m).get f = p.get f := by
  cases f with
  | negative | overflow | zero => simp at hf
  | _ => rfl

/-- BIT writes N, V and Z alone. -/
theorem State.after_bit_changes (s : State) (m : MemMode) :
    Changes [] [.negative, .overflow, .zero] [] s (s.after (.bit m)) := by
  apply State.loadOperand_setSR_changes
  intro f hf
  rw [Flags.bitTest_get _ _ _ hf, State.loadOperand_sr]

/-- Settles O29: BIT loads its operand and writes N, V and Z, of which Z alone looks at A. -/
theorem bitTest : Obligations.BitTest := by
  refine ⟨?zp, ?abs, fun m s => ⟨s.after (.bit m), exec_eq_after _ _, ?zero, rfl, rfl, s.loadOperand_pc (.mem m), rfl,
    s.after_bit_changes m⟩⟩
  case zp => exact encodesByte_of_opcode (fun _ => rfl) (fun _ => rfl)
  case abs => exact encodesWord_of_opcode (fun _ => rfl) (fun _ => rfl)
  case zero => exact decide_eq_true_iff

end Sys2Proof.Machine
end

/-! ### Frames compose, and SP's byte in page 1 (R36, R213) -/
section
namespace Sys2Proof.Machine
open Sys2Proof.Claims

/-- Two transitions in a row change at most what one of them changes. -/
theorem Changes.trans {rs rs' : List RegName} {fs fs' : List FlagName} {as as' : List Addr} {s t u : State}
    (h : Changes rs fs as s t) (h' : Changes rs' fs' as' t u) : Changes (rs' ++ rs) (fs' ++ fs) (as' ++ as) s u := by
  obtain ⟨hregs, hflags, hmem, hdevices, hstepNo⟩ := h
  obtain ⟨hregs', hflags', hmem', hdevices', hstepNo'⟩ := h'
  refine ⟨fun r hr => ?regs, fun f hf => ?flags, fun a ha => ?mem, hdevices'.trans hdevices, hstepNo'.trans hstepNo⟩
  case regs =>
    rw [List.mem_append, not_or] at hr
    exact (hregs' r hr.1).trans (hregs r hr.2)
  case flags =>
    rw [List.mem_append, not_or] at hf
    exact (hflags' f hf.1).trans (hflags f hf.2)
  case mem =>
    rw [List.mem_append, not_or] at ha
    exact (hmem' a ha.1).trans (hmem a ha.2)

/-- Looking at a register does not see a write of the status. -/
theorem State.setSR_reg (s : State) (p : Flags) (r : RegName) : (s.setSR p).reg r = s.reg r := by
  cases r <;> rfl

theorem State.setSP_reg_other (s : State) (v : Byte) {r : RegName} (hr : r ∉ [RegName.sp]) :
    (s.setSP v).reg r = s.reg r := by
  cases r with
  | sp => simp at hr
  | _ => rfl

theorem stackAddr_toNat (p : Byte) : (stackAddr p).toNat = 0x100 + p.toNat := by
  have hfits : 0x100 + p.toNat < 65536 := by have := p.isLt; omega
  rw [stackAddr, add_zext16_toNat]
  exact Nat.mod_eq_of_lt hfits

theorem stackAddr_inj {p q : Byte} : stackAddr p = stackAddr q ↔ p = q := by
  refine ⟨fun h => BitVec.eq_of_toNat_eq ?_, congrArg stackAddr⟩
  have hnat := congrArg BitVec.toNat h
  rwa [stackAddr_toNat, stackAddr_toNat, Nat.add_left_cancel_iff] at hnat

theorem stackAddr_mem_pageOne (p : Byte) : 0x100 ≤ (stackAddr p).toNat ∧ (stackAddr p).toNat ≤ 0x1FF := by
  have := p.isLt
  rw [stackAddr_toNat]
  omega

theorem ne_stackAddr_of_outside {a : Addr} (ha : a.toNat < 0x100 ∨ 0x1FF < a.toNat) (p : Byte) : a ≠ stackAddr p := by
  rintro rfl
  have := stackAddr_mem_pageOne p
  omega

end Sys2Proof.Machine
end

/-! ### One push and one pull (R210, R211) -/
section
namespace Sys2Proof.Machine
open Sys2Proof.Claims

section
variable (s : State)

theorem State.push_pushed (v : Byte) : Pushed v s (s.push v) :=
  ⟨stored_of_peek (s.push_peek v), s.push_sp v, s.push_port v⟩

theorem State.push_peek_other {c : Addr} (h : c ≠ stackAddr s.sp) (v : Byte) : (s.push v).peek c = s.peek c := by
  rw [State.push_peek, if_neg (fun hc => h hc.1)]

/-- A push changes SP and the byte it stores alone. -/
theorem State.push_changes (v : Byte) : Changes [.sp] [] [stackAddr s.sp] s (s.push v) := by
  refine ⟨fun r hr => ?regs, fun f _ => ?flags, fun c hc => ?mem, s.push_devices v, s.push_stepNo v⟩
  case regs =>
    obtain ⟨hregs, -⟩ := s.memWrite_changes (stackAddr s.sp) v
    exact (State.setSP_reg_other _ _ hr).trans (hregs r List.not_mem_nil)
  case flags => rw [State.push_sr]
  case mem => exact s.push_peek_other (by simpa using hc) v

/-- A pull from `PlainRam` is the byte memory holds above SP. -/
theorem State.pull_fst_of_plain (h : s.plain (stackAddr (s.sp + 1)) = true) :
    s.pull.1 = s.peek (stackAddr (s.sp + 1)) :=
  s.answer_plain _ h

theorem State.pull_pulled : Pulled s.pull.1 s s.pull.2 := ⟨s.pull_fst_of_plain, s.pull_sp, s.pull_port⟩

/-- A pull changes SP alone. -/
theorem State.pull_changes : Changes [.sp] [] [] s s.pull.2 :=
  ⟨fun _ hr => s.setSP_reg_other _ hr, fun _ _ => rfl, fun c _ => s.pull_peek c, rfl, rfl⟩

end

/-- Settles O30: the rules of one push and one pull, with SP's move read modulo 256. -/
theorem pushAndPull : Obligations.PushAndPull :=
  ⟨stackAddr_toNat,
    fun s v => ⟨s.push_pushed v, s.push_pc v, s.push_changes v, by rw [State.push_sp, byte_sub_one_toNat]⟩,
    fun s => ⟨s.pull_pulled, s.pull_pc, s.pull_changes, byte_add_one_toNat s.sp⟩⟩

end Sys2Proof.Machine
end

/-! ### A series of pushes and a series of pulls (R212, R213) -/
section
namespace Sys2Proof.Machine
open Sys2Proof.Claims

/-- The address at which the push that follows `k` pushes from here stores. -/
def State.pushSlot (s : State) (k : Nat) : Addr := stackAddr (s.sp - BitVec.ofNat 8 k)

@[simp] theorem State.pushSlot_zero (s : State) : s.pushSlot 0 = stackAddr s.sp :=
  congrArg stackAddr (BitVec.sub_zero s.sp)

theorem State.push_pushSlot (s : State) (v : Byte) (k : Nat) : (s.push v).pushSlot k = s.pushSlot (k + 1) := by
  refine congrArg stackAddr ?_
  rw [State.push_sp, BitVec.ofNat_add]
  bv_omega

/-- 256 pushes in a row store at different addresses. -/
theorem State.pushSlot_ne (s : State) {j k : Nat} (hjk : j < k) (hk : k < 256) : s.pushSlot j ≠ s.pushSlot k := by
  intro h
  have hsp := stackAddr_inj.mp h
  bv_omega

/-! What a series of pushes leaves: SP, `PlainRam`, and memory outside the slots it stores at. -/

theorem pushAll_sp (bs : List Byte) (s : State) : (pushAll s bs).sp = s.sp - BitVec.ofNat 8 bs.length := by
  induction bs generalizing s with
  | nil => exact (BitVec.sub_zero s.sp).symm
  | cons b bs ih =>
    rw [pushAll, ih, State.push_sp, List.length_cons, BitVec.ofNat_add]
    bv_omega

@[simp] theorem pushAll_plain (bs : List Byte) (s : State) (a : Addr) : (pushAll s bs).plain a = s.plain a := by
  induction bs generalizing s with
  | nil => rfl
  | cons b bs ih => rw [pushAll, ih, State.push_plain]

theorem pushAll_peek_other (bs : List Byte) {s : State} {a : Addr} (ha : ∀ k < bs.length, a ≠ s.pushSlot k) :
    (pushAll s bs).peek a = s.peek a := by
  induction bs generalizing s with
  | nil => rfl
  | cons b bs ih =>
    have hfirst : a ≠ stackAddr s.sp := s.pushSlot_zero ▸ ha 0 (Nat.succ_pos _)
    have hlater : ∀ k < bs.length, a ≠ (s.push b).pushSlot k := fun k hk =>
      s.push_pushSlot b k ▸ ha (k + 1) (Nat.succ_lt_succ hk)
    rw [pushAll, ih hlater, State.push_peek_other s hfirst]

theorem pushAll_peek_outside (bs : List Byte) (s : State) {a : Addr} (ha : a.toNat < 0x100 ∨ 0x1FF < a.toNat) :
    (pushAll s bs).peek a = s.peek a :=
  pushAll_peek_other bs (fun _ _ => ne_stackAddr_of_outside ha _)

/-! A series of pulls moves SP alone, and its last byte is one more pull. -/

theorem pullMany_sp (n : Nat) (s : State) : (pullMany s n).2.sp = s.sp + BitVec.ofNat 8 n := by
  induction n generalizing s with
  | zero => exact (BitVec.add_zero s.sp).symm
  | succ n ih =>
    rw [pullMany, ih, State.pull_sp, BitVec.ofNat_add]
    bv_omega

@[simp] theorem pullMany_plain (n : Nat) (s : State) (a : Addr) : (pullMany s n).2.plain a = s.plain a := by
  induction n generalizing s with
  | zero => rfl
  | succ n ih => rw [pullMany, ih, State.pull_plain]

@[simp] theorem pullMany_peek (n : Nat) (s : State) (a : Addr) : (pullMany s n).2.peek a = s.peek a := by
  induction n generalizing s with
  | zero => rfl
  | succ n ih => rw [pullMany, ih, State.pull_peek]

theorem pullMany_succ_fst (n : Nat) (s : State) :
    (pullMany s (n + 1)).1 = (pullMany s n).1 ++ [(pullMany s n).2.pull.1] := by
  induction n generalizing s with
  | zero => rfl
  | succ n ih => exact congrArg (s.pull.1 :: ·) (ih s.pull.2)

/-- As many pulls as pushes bring SP back, wherever it starts. -/
theorem pullMany_pushAll_sp (bs : List Byte) (s : State) : (pullMany (pushAll s bs) bs.length).2.sp = s.sp := by
  rw [pullMany_sp, pushAll_sp, BitVec.sub_add_cancel]

/-- Pulled after the pulls that undo the pushes above it, the first byte pushed comes back: no later push reached it. -/
theorem pull_pullMany_pushAll_push {bs : List Byte} (hlen : bs.length < 256) {s : State} (b : Byte)
    (hplain : s.plain (stackAddr s.sp) = true) :
    (pullMany (pushAll (s.push b) bs) bs.length).2.pull.1 = b := by
  have hsp : (pullMany (pushAll (s.push b) bs) bs.length).2.sp + 1 = s.sp := by
    rw [pullMany_pushAll_sp, State.push_sp, BitVec.sub_add_cancel]
  have hmiss : ∀ k < bs.length, stackAddr s.sp ≠ (s.push b).pushSlot k := fun k hk => by
    rw [State.push_pushSlot, ← State.pushSlot_zero]
    exact s.pushSlot_ne (Nat.succ_pos k) (Nat.lt_of_le_of_lt hk hlen)
  rw [State.pull_fst_of_plain _ (by rw [hsp]; simpa using hplain), hsp, pullMany_peek, pushAll_peek_other bs hmiss,
    State.push_peek, if_pos ⟨rfl, hplain⟩]

/-- Bytes pushed in plain memory come back last in, first out (R213). -/
theorem pullMany_pushAll_fst (bs : List Byte) {s : State} (hlen : bs.length ≤ 256)
    (hplain : ∀ k < bs.length, s.plain (s.pushSlot k) = true) :
    (pullMany (pushAll s bs) bs.length).1 = bs.reverse := by
  induction bs generalizing s with
  | nil => rfl
  | cons b bs ih =>
    have hfirst : s.plain (stackAddr s.sp) = true := s.pushSlot_zero ▸ hplain 0 (Nat.succ_pos _)
    have hlater : ∀ k < bs.length, (s.push b).plain ((s.push b).pushSlot k) = true := fun k hk => by
      rw [State.push_plain, State.push_pushSlot]
      exact hplain (k + 1) (Nat.succ_lt_succ hk)
    rw [pushAll, List.length_cons, pullMany_succ_fst, ih (Nat.le_of_succ_le hlen) hlater,
      pull_pullMany_pushAll_push hlen b hfirst, List.reverse_cons]

/-- Settles O32: every slot of a series of pushes is in the stack page. -/
theorem stackIsLastInFirstOut : Obligations.StackIsLastInFirstOut :=
  fun bs s hlen hplain => ⟨pullMany_pushAll_fst bs hlen (fun _ _ => hplain _), pullMany_pushAll_sp bs s,
    fun _ => pushAll_peek_outside bs s⟩

/-! ### A word on the stack (R212) -/

theorem State.push16_eq_pushAll (s : State) (v : Addr) : s.push16 v = pushAll s [hiByte v, loByte v] := rfl

/-- A word pushed in plain memory is pulled back: its two bytes come back reversed, so low byte first. -/
theorem State.pull16_push16_fst {s : State} (hhi : s.plain (stackAddr s.sp) = true)
    (hlo : s.plain (stackAddr (s.sp - 1)) = true) (v : Addr) : (s.push16 v).pull16.1 = v := by
  have hplain : ∀ k < 2, s.plain (s.pushSlot k) = true := fun k hk => by
    interval_cases k
    · rwa [State.pushSlot_zero]
    · exact hlo
  have hbytes : [(s.push16 v).pull.1, (s.push16 v).pull.2.pull.1] = [loByte v, hiByte v] :=
    pullMany_pushAll_fst [hiByte v, loByte v] (by simp) hplain
  obtain ⟨hfst, hsnd⟩ : (s.push16 v).pull.1 = loByte v ∧ (s.push16 v).pull.2.pull.1 = hiByte v := by
    simpa using hbytes
  rw [State.pull16_fst, hfst, hsnd, joinBytes_hiByte_loByte]

/-- Settles O31: the word is a series of two bytes. -/
theorem pushedWordPullsBack : Obligations.PushedWordPullsBack := by
  intro s v
  refine ⟨s.push16_port v, ⟨_, _, ?port, s.pull16_fst⟩, fun hhi hlo => ⟨State.pull16_push16_fst hhi hlo v, ?sp⟩⟩
  case port => rw [State.pull16_port, BitVec.add_assoc]; rfl
  case sp => exact pullMany_pushAll_sp [hiByte v, loByte v] s

end Sys2Proof.Machine
end

/-! ### PHA, PLA, PHP and PLP (R214 to R217) -/
section
namespace Sys2Proof.Machine
open Sys2Proof.Claims

/-- The flags are those their status byte shows. -/
theorem Flags.ofByte_toByte (p : Flags) : Flags.ofByte p.toByte = p := by
  obtain ⟨hn, hv, -, hb, hd, hi, hz, hc⟩ := statusByteLayout p
  rw [Flags.ofByte, hc, hz, hi, hd, hb, hv, hn]

/-- Forcing bit 5 of a status byte to 1 changes nothing (R42). -/
theorem Flags.toByte_or_bit5 (p : Flags) : p.toByte ||| 0x20 = p.toByte := by
  rw [← Flags.toByte_ofByte, Flags.ofByte_toByte]

/-- Forcing bit 4 of a status byte to 1 shows B as set. -/
theorem Flags.toByte_or_bit4 (p : Flags) : p.toByte ||| 0x10 = ({ p with b := true } : Flags).toByte := by
  apply BitVec.eq_of_getLsbD_eq
  intro k hk
  rw [BitVec.getLsbD_or, Flags.toByte_getLsbD, Flags.toByte_getLsbD]
  interval_cases k <;> simp

theorem Flags.toByte_or_bits4_5 (p : Flags) : p.toByte ||| 0x30 = ({ p with b := true } : Flags).toByte :=
  calc p.toByte ||| 0x30 = p.toByte ||| 0x20 ||| 0x10 := (BitVec.or_assoc p.toByte 0x20 0x10).symm
    _ = ({ p with b := true } : Flags).toByte := by rw [Flags.toByte_or_bit5, Flags.toByte_or_bit4]

/-- PLA is a pull and then a write of A, N and Z. -/
theorem State.after_pla_changes (s : State) : Changes [.a, .sp] [.negative, .zero] [] s (s.after .pla) :=
  s.pull_changes.trans (s.pull.2.hostSetReg_setNZ_changes .a s.pull.1 s.pull.1)

/-- Settles O33: two pushes and two pulls, of A and of the status. -/
theorem stackInstructions : Obligations.StackInstructions := by
  refine ⟨⟨encodes_of_opcode rfl, fun s => ?pha⟩, ⟨encodes_of_opcode rfl, fun s => ?pla⟩,
    ⟨encodes_of_opcode rfl, fun s => ?php⟩, ⟨encodes_of_opcode rfl, fun s => ?plp⟩⟩
  case pha => exact ⟨_, exec_eq_after .pha s, s.push_pushed s.a, s.push_pc s.a, s.push_changes s.a⟩
  case pla =>
    exact ⟨_, s.pull.1, exec_eq_after .pla s, s.pull_pulled, rfl, nzFrom_of_sr rfl, rfl, s.after_pla_changes⟩
  case php =>
    rw [← Flags.toByte_or_bits4_5]
    exact ⟨_, exec_eq_after .php s, s.push_pushed _, s.push_pc _, s.push_changes _⟩
  case plp =>
    obtain ⟨hregs, -⟩ := s.pull_changes
    exact ⟨_, s.pull.1, exec_eq_after .plp s, s.pull_pulled, rfl, rfl, rfl, rfl, rfl, rfl, rfl, rfl,
      fun r hr => (s.pull.2.setSR_reg _ r).trans (hregs r hr), fun _ _ => rfl⟩

end Sys2Proof.Machine
end

/-! ### The stack instructions stay in page 1 (R213) -/
section
namespace Sys2Proof.Machine
open Sys2Proof.Claims

/-- Every access of a stack instruction is at a stack address, but for BRK's two reads of its vector. -/
theorem State.after_stack_accesses (s : State) {i : Instr} (hi : usesStack i = true) :
    ∃ new, (s.after i).port = s.port ++ new ∧ ∀ e ∈ new,
      (∃ p, accessAddr e = stackAddr p) ∨ (i = .brk ∧ (accessAddr e = 0xFFFE ∨ accessAddr e = 0xFFFF)) := by
  cases i with
  | pha | php => exact ⟨_, s.push_port _, by simp [accessAddr]⟩
  | pla | plp => exact ⟨_, s.pull_port, by simp [accessAddr]⟩
  | jsr w => exact ⟨_, s.push16_port _, by simp [accessAddr]⟩
  | rts => exact ⟨_, s.pull16_port, by simp [accessAddr]⟩
  | rti => exact ⟨_, s.trapReturn_port, by simp [accessAddr]⟩
  | brk =>
    obtain ⟨lo, hi, hport⟩ := s.trapEntry_port
    exact ⟨_, hport, by simp [accessAddr, breakVectorLo, breakVectorHi]⟩
  | _ => cases hi

/-- BRK's entry leaves the memory of its three pushes. -/
theorem State.trapEntry_peek (s : State) (a : Addr) :
    s.trapEntry.peek a = (pushAll s [hiByte s.pc, loByte s.pc, s.sr.toByte ||| 0x10]).peek a := by
  simp [State.trapEntry, State.push16_eq_pushAll, pushAll]

/-- Memory after a stack instruction is memory after its pushes, none of them outside page 1. -/
theorem State.after_stack_peek_outside (s : State) {i : Instr} (hi : usesStack i = true) {a : Addr}
    (ha : a.toNat < 0x100 ∨ 0x1FF < a.toNat) : (s.after i).peek a = s.peek a := by
  cases i with
  | pha | php => exact pushAll_peek_outside [_] s ha
  | jsr w => rw [State.after, State.setPC_peek, State.push16_eq_pushAll, pushAll_peek_outside _ s ha]
  | brk => rw [State.after, State.trapEntry_peek, pushAll_peek_outside _ s ha]
  | pla | plp | rts | rti => rw [State.peek, State.after_mem s rfl, State.peek]
  | _ => cases hi

/-- Settles O34: a stack address is in page 1. -/
theorem stackStaysInPageOne : Obligations.StackStaysInPageOne := by
  intro i s t hi h
  obtain rfl := eq_after_of_exec h
  obtain ⟨new, hport, hnew⟩ := s.after_stack_accesses hi
  refine ⟨⟨new, hport, fun e he => ?_⟩, fun a => s.after_stack_peek_outside hi⟩
  obtain ⟨p, hp⟩ | hvector := hnew e he
  · exact .inl (hp ▸ stackAddr_mem_pageOne p)
  · exact .inr hvector

end Sys2Proof.Machine
end

/-! ### The fetch of an instruction that stands in `PlainRam` (R66, R333) -/
section
namespace Sys2Proof.Machine

section
variable {s : State}

/-- The state after the read of the opcode `op`, the first access of the step (R333). -/
def State.pastOpcode (s : State) (op : Byte) : State :=
  { s with pc := s.pc + 1, stepNo := s.stepNo + 1, port := [.read s.pc op] }

theorem State.beginStep_fetch8_of_plain (h : s.plain s.pc = true) :
    s.beginStep.fetch8 = (s.peek s.pc, s.pastOpcode (s.peek s.pc)) :=
  s.beginStep.fetch8_of_plain h

/-- Where the opcode is plain memory, the step decodes that byte with the operand bytes its format consumes. -/
theorem step_of_plain {op : Byte} (hplain : s.plain s.pc = true) (hop : s.peek s.pc = op) :
    step s = exec (decodeOp op ((s.pastOpcode op).fetchOperands (formatOf op)).1.1
      ((s.pastOpcode op).fetchOperands (formatOf op)).1.2) ((s.pastOpcode op).fetchOperands (formatOf op)).2 := by
  rw [step, State.fetchInstr, State.beginStep_fetch8_of_plain hplain, hop]

/-- A word operand in plain memory is two reads, low byte first (R19). -/
theorem State.fetchOperands_abs_of_plain (hlo : s.plain s.pc = true) (hhi : s.plain (s.pc + 1) = true) :
    s.fetchOperands .abs = ((s.peek s.pc, s.peek (s.pc + 1)), { s with
      pc := s.pc + 1 + 1, port := s.port ++ [.read s.pc (s.peek s.pc)] ++ [.read (s.pc + 1) (s.peek (s.pc + 1))] }) := by
  have hfirst := s.fetch8_of_plain hlo
  have hsecond := s.fetch8.2.fetch8_of_plain hhi
  rw [hfirst] at hsecond
  rw [State.fetchOperands, hfirst, hsecond]
  rfl

end

end Sys2Proof.Machine
end

/-! ### What a transition changes: bounds that grow, and PC and the record, of which the frame says nothing -/
section
namespace Sys2Proof.Machine
open Sys2Proof.Claims

/-- What changes at most the listed things changes at most the things of any longer lists. -/
theorem Changes.mono {rs rs' : List RegName} {fs fs' : List FlagName} {as as' : List Addr} {s t : State}
    (h : Changes rs fs as s t) (hrs : rs ⊆ rs') (hfs : fs ⊆ fs') (has : as ⊆ as') : Changes rs' fs' as' s t := by
  obtain ⟨hregs, hflags, hmem, hrest⟩ := h
  exact ⟨fun r hr => hregs r (fun h => hr (hrs h)), fun f hf => hflags f (fun h => hf (hfs h)),
    fun a ha => hmem a (fun h => ha (has h)), hrest⟩

theorem Changes.refl (s : State) : Changes [] [] [] s s := ⟨fun _ _ => rfl, fun _ _ => rfl, fun _ _ => rfl, rfl, rfl⟩

theorem Changes.setPC {rs : List RegName} {fs : List FlagName} {as : List Addr} {s t : State}
    (h : Changes rs fs as s t) (w : Addr) : Changes rs fs as s (t.setPC w) := h

theorem Changes.read16 {rs : List RegName} {fs : List FlagName} {as : List Addr} {s t : State}
    (h : Changes rs fs as s t) (lo hi : Addr) : Changes rs fs as s (t.read16 lo hi).2 := h

/-- A store seen in one state is seen in every state that holds the same byte there. -/
theorem stored_of_peek_eq {a : Addr} {v : Byte} {s t u : State} (h : Stored a v s t) (hpeek : u.peek a = t.peek a) :
    Stored a v s u := by
  rwa [Stored, hpeek]

end Sys2Proof.Machine
end

/-! ### What a series of pushes stores, and what a series of pulls answers (R210 to R212) -/
section
namespace Sys2Proof.Machine
open Sys2Proof.Claims

/-- A series of pushes changes SP and the bytes of its slots alone. -/
theorem pushAll_changes (bs : List Byte) (s : State) :
    Changes [.sp] [] ((List.range bs.length).map s.pushSlot) s (pushAll s bs) := by
  induction bs generalizing s with
  | nil => exact (Changes.refl s).mono (List.nil_subset _) (List.nil_subset _) (List.nil_subset _)
  | cons b bs ih =>
    refine ((s.push_changes b).trans (ih (s.push b))).mono (by simp) (by simp) (List.append_subset.mpr ⟨?later, ?first⟩)
    case later =>
      intro a ha
      obtain ⟨k, hk, rfl⟩ := List.mem_map.mp ha
      rw [State.push_pushSlot]
      exact List.mem_map_of_mem (List.mem_range.mpr (Nat.succ_lt_succ (List.mem_range.mp hk)))
    case first =>
      intro a ha
      rw [List.mem_singleton.mp ha, ← State.pushSlot_zero]
      exact List.mem_map_of_mem (List.mem_range.mpr (Nat.succ_pos _))

/-- Each byte of up to 256 pushed stays in its slot: no later push reaches it. -/
theorem pushAll_stored {bs : List Byte} (hlen : bs.length ≤ 256) (s : State) {k : Nat} (hk : k < bs.length) :
    Stored (s.pushSlot k) bs[k] s (pushAll s bs) := by
  induction bs generalizing s k with
  | nil => cases hk
  | cons b bs ih =>
    cases k with
    | zero =>
      obtain ⟨hfirst, -⟩ := s.push_pushed b
      rw [State.pushSlot_zero]
      refine stored_of_peek_eq hfirst (pushAll_peek_other bs fun j hj => ?_)
      rw [State.push_pushSlot, ← State.pushSlot_zero]
      exact s.pushSlot_ne (Nat.succ_pos j) (Nat.lt_of_le_of_lt hj hlen)
    | succ k =>
      obtain ⟨hplain, hdevice⟩ := ih (Nat.le_of_succ_le hlen) (s.push b) (Nat.lt_of_succ_lt_succ hk)
      have hmiss : s.pushSlot (k + 1) ≠ stackAddr s.sp := by
        rw [← State.pushSlot_zero]
        exact (s.pushSlot_ne (Nat.succ_pos k) (Nat.lt_of_lt_of_le hk hlen)).symm
      rw [State.push_pushSlot, State.push_plain] at hplain hdevice
      exact ⟨hplain, fun h => (hdevice h).trans (s.push_peek_other hmiss b)⟩

/-- A series of pulls changes SP alone. -/
theorem pullMany_changes (n : Nat) (s : State) : Changes [.sp] [] [] s (pullMany s n).2 := by
  induction n generalizing s with
  | zero => exact (Changes.refl s).mono (List.nil_subset _) (List.Subset.refl _) (List.Subset.refl _)
  | succ n ih => exact (s.pull_changes.trans (ih s.pull.2)).mono (by simp) (by simp) (by simp)

/-- With the stack page plain, what is pulled depends on SP and memory alone. -/
theorem pullMany_fst_congr {s t : State} (hs : PlainStack s) (hplain : ∀ a, t.plain a = s.plain a) (hsp : t.sp = s.sp)
    (hpeek : ∀ a, t.peek a = s.peek a) (n : Nat) : (pullMany t n).1 = (pullMany s n).1 := by
  induction n generalizing s t with
  | zero => rfl
  | succ n ih =>
    have hfirst : t.pull.1 = s.pull.1 := by
      rw [State.pull_fst_of_plain t ((hplain _).trans (hs _)), State.pull_fst_of_plain s (hs _), hsp, hpeek]
    have hlater := ih (s := s.pull.2) (t := t.pull.2) hs hplain (congrArg (· + 1) hsp) hpeek
    rw [pullMany, pullMany, hfirst, hlater]

end Sys2Proof.Machine
end

/-! ### The eight conditional branches (R237 to R245) -/
section
namespace Sys2Proof.Machine
open Sys2Proof.Claims

/-- A branch moves PC at most. -/
theorem State.branchIf_changes (s : State) (q : Bool) (d : Byte) : Changes [] [] [] s (s.branchIf q d) := by
  cases q with
  | false => exact Changes.refl s
  | true => exact (Changes.refl s).setPC _

/-- An instruction that leaves the state of the shared branch operation follows its rule. -/
theorem branchRule_of_after {f : Byte → Instr} {op : Byte} {cond : State → Bool} (hop : ∀ d, (f d).opcode = some op)
    (hbytes : ∀ d, instrOperandBytes (f d) = [d]) (h : ∀ d s, State.after s (f d) = s.branchIf (cond s) d) :
    BranchRule f op cond := by
  refine ⟨encodesByte_of_opcode hop hbytes, fun d s => ⟨s.branchIf (cond s) d, ?_, s.branchIf_pc _ d, s.branchIf_port _ d,
    s.branchIf_changes _ d⟩⟩
  rw [exec_eq_after, h]

/-- Settles O42: each of the eight is the shared branch operation on its flag test. -/
theorem conditionalBranches : Obligations.ConditionalBranches := by
  refine ⟨?bpl, ?bmi, ?bvc, ?bvs, ?bcc, ?bcs, ?bne, ?beq⟩
  case bpl | bmi | bvc | bvs | bcc | bcs | bne | beq =>
    exact branchRule_of_after (fun _ => rfl) (fun _ => rfl) (fun _ _ => rfl)

end Sys2Proof.Machine
end

/-! ### The two bytes of a word, by value and by mask (R17, R132) -/
section
namespace Sys2Proof

theorem loByte_toNat (w : Addr) : (loByte w).toNat = w.toNat % 256 := BitVec.extractLsb'_toNat 0 8 w

theorem hiByte_toNat (w : Addr) : (hiByte w).toNat = w.toNat / 256 := by
  have := w.isLt
  rw [hiByte, BitVec.extractLsb'_toNat, Nat.shiftRight_eq_div_pow]
  omega

/-- Masking the two bytes of a word out of two words is joining the one's high byte and the other's low byte. -/
theorem highMask_or_lowMask (w v : Addr) : (w &&& 0xFF00) ||| (v &&& 0x00FF) = joinBytes (hiByte w) (loByte v) := by
  apply BitVec.eq_of_getLsbD_eq
  intro k hk
  rw [joinBytes, hiByte, loByte, BitVec.getLsbD_append, BitVec.getLsbD_or, BitVec.getLsbD_and, BitVec.getLsbD_and]
  interval_cases k <;> simp

end Sys2Proof
end

/-! ### JMP (R235, R236, R132) -/
section
namespace Sys2Proof.Machine
open Sys2Proof.Claims

/-- The second byte of an indirect jump's pointer is at the next address of the pointer's own page (R132). -/
theorem pointerHiAddr_toNat (w : Addr) : (pointerHiAddr w).toNat = w.toNat / 256 * 256 + (w.toNat + 1) % 256 := by
  have hnext : (loByte (w + 1)).toNat = (w.toNat + 1) % 256 := by
    rw [loByte_toNat, BitVec.toNat_add]
    exact Nat.mod_mod_of_dvd _ (by decide)
  rw [pointerHiAddr, highMask_or_lowMask, joinBytes_toNat, hiByte_toNat, hnext, Nat.mul_comm]

/-- Settles O41: an absolute jump writes PC alone, an indirect one reads its word first. -/
theorem jumpsSetPC : Obligations.JumpsSetPC := by
  refine ⟨⟨encodesWord_of_opcode (fun _ => rfl) (fun _ => rfl), fun w s => ?abs⟩,
    ⟨encodesWord_of_opcode (fun _ => rfl) (fun _ => rfl), fun w s => ?ind⟩⟩
  case abs => exact ⟨_, exec_eq_after _ s, rfl, rfl, (Changes.refl s).setPC w⟩
  case ind =>
    exact ⟨_, pointerHiAddr w, exec_eq_after _ s, pointerHiAddr_toNat w, s.read16_pairRead w (pointerHiAddr w),
      ((Changes.refl s).read16 _ _).setPC _⟩

end Sys2Proof.Machine
end

/-! ### JSR and RTS (R233, R234) -/
section
namespace Sys2Proof.Machine
open Sys2Proof.Claims

/-- The step of a JSR in plain memory: its three bytes are fetched, and then it is executed (R233; D19). -/
theorem step_jsr_of_plain {s : State} (hpc : s.plain s.pc = true) (hpc1 : s.plain (s.pc + 1) = true)
    (hpc2 : s.plain (s.pc + 2) = true) (hop : s.peek s.pc = 0x20) :
    step s = exec (.jsr (joinBytes (s.peek (s.pc + 2)) (s.peek (s.pc + 1)))) { s with
      pc := s.pc + 3
      stepNo := s.stepNo + 1
      port := [.read s.pc 0x20, .read (s.pc + 1) (s.peek (s.pc + 1)), .read (s.pc + 2) (s.peek (s.pc + 2))] } := by
  have htwo : s.pc + 2 = s.pc + 1 + 1 := (BitVec.add_assoc s.pc 1 1).symm
  have hthree : s.pc + 3 = s.pc + 1 + 1 + 1 := by rw [← htwo]; exact (BitVec.add_assoc s.pc 2 1).symm
  rw [htwo] at hpc2 ⊢
  have hoperands := State.fetchOperands_abs_of_plain (s := s.pastOpcode 0x20) hpc1 hpc2
  have hformat : formatOf 0x20 = .abs := rfl
  rw [step_of_plain hpc hop, hformat, hoperands, hthree]
  rfl

theorem State.push16_stored_hiByte (s : State) (v : Addr) : Stored (stackAddr s.sp) (hiByte v) s (s.push16 v) :=
  s.pushSlot_zero ▸ pushAll_stored (bs := [hiByte v, loByte v]) (by simp) s (k := 0) (by simp)

theorem State.push16_stored_loByte (s : State) (v : Addr) : Stored (stackAddr (s.sp - 1)) (loByte v) s (s.push16 v) :=
  pushAll_stored (bs := [hiByte v, loByte v]) (by simp) s (k := 1) (by simp)

/-- A word pushed changes SP and its two slots alone. -/
theorem State.push16_changes (s : State) (v : Addr) :
    Changes [.sp] [] [stackAddr s.sp, stackAddr (s.sp - 1)] s (s.push16 v) :=
  s.pushSlot_zero ▸ pushAll_changes [hiByte v, loByte v] s

/-- Settles O38: the return address is a word pushed, and PC is of no account to what the push stores and changes. -/
theorem jsrPushesLastByteAddress : Obligations.JsrPushesLastByteAddress := by
  refine ⟨encodesWord_of_opcode (fun _ => rfl) (fun _ => rfl), ?step, fun w s => ?exec⟩
  case step =>
    rintro s lo hi hpc hpc1 hpc2 hop rfl rfl
    exact step_jsr_of_plain hpc hpc1 hpc2 hop
  case exec =>
    exact ⟨_, exec_eq_after _ s, rfl, pushAll_sp [hiByte (s.pc - 1), loByte (s.pc - 1)] s, s.push16_port _,
      s.push16_stored_hiByte _, s.push16_stored_loByte _, (s.push16_changes _).setPC w⟩

/-- With the stack page plain, a word pulled is the word memory holds above SP. -/
theorem State.pull16_bytes_of_plain {s : State} (h : PlainStack s) :
    s.pull.1 = s.peek (stackAddr (s.sp + 1)) ∧ s.pull.2.pull.1 = s.peek (stackAddr (s.sp + 1 + 1)) :=
  ⟨s.pull_fst_of_plain (h _), s.pull.2.pull_fst_of_plain (h _)⟩

theorem byte_add_two (p : Byte) : p + 2 = p + 1 + 1 := (BitVec.add_assoc p 1 1).symm

/-- Settles O39: RTS is a word pulled, to which one is added. -/
theorem rtsReturnsToNextByte : Obligations.RtsReturnsToNextByte := by
  refine ⟨encodes_of_opcode rfl, fun s => ?_⟩
  rw [byte_add_two]
  exact ⟨_, _, _, exec_eq_after _ s, s.pull16_port, State.pull16_bytes_of_plain, rfl, rfl, (pullMany_changes 2 s).setPC _⟩

theorem State.pull16_setPC_fst (s : State) (w : Addr) : (s.setPC w).pull16.1 = s.pull16.1 := rfl

/-- Settles O40: the word RTS pulls is the one JSR pushed, and SP comes back with it. -/
theorem rtsUndoesJsr : Obligations.RtsUndoesJsr := by
  intro w s hstack
  refine ⟨_, _, exec_eq_after _ s, exec_eq_after _ _, ?pc, ?regs, ?flags⟩ <;> rw [State.after, State.after]
  case pc =>
    have hword : (s.push16 (s.pc - 1)).pull16.1 = s.pc - 1 := State.pull16_push16_fst (hstack _) (hstack _) _
    rw [State.setPC_pc, State.pull16_setPC_fst, hword, BitVec.sub_add_cancel]
  case regs => apply regsKept_of_eq <;> simp
  case flags => exact fun f _ => by simp

end Sys2Proof.Machine
end

/-! ### The entry of a trap and the return from it (R305, R306) -/
section
namespace Sys2Proof.Machine
open Sys2Proof.Claims

theorem Flags.put_get_other (p : Flags) (v : Bool) {f g : FlagName} (h : g ≠ f) : (p.put f v).get g = p.get g := by
  cases f <;> cases g <;> simp [Flags.put, Flags.get] at h ⊢

/-- Writing a flag changes that flag alone. -/
theorem State.hostSetFlag_changes (s : State) (f : FlagName) (v : Bool) : Changes [] [f] [] s (s.hostSetFlag f v) :=
  ⟨fun r _ => s.setSR_reg _ r, fun _ hg => s.sr.put_get_other v (fun h => hg (List.mem_singleton.mpr h)), fun _ _ => rfl,
    rfl, rfl⟩

variable (s : State)

/-- The bytes a trap entry pushes, in order: PC, high byte first, and the status with Break forced to 1 (R305). -/
def State.trapBytes : List Byte := [hiByte s.pc, loByte s.pc, ({ s.sr with b := true } : Flags).toByte]

@[simp] theorem State.trapBytes_length : s.trapBytes.length = 3 := rfl

/-- A trap entry is three pushes, the write of I, and the read of the vector into PC. -/
theorem State.trapEntry_eq : s.trapEntry =
    (((pushAll s s.trapBytes).hostSetFlag .interruptDisable true).read16 breakVectorLo breakVectorHi).2.setPC
      ((pushAll s s.trapBytes).read16 breakVectorLo breakVectorHi).1 := by
  rw [State.trapBytes, ← Flags.toByte_or_bit4]
  rfl

theorem State.trapEntry_peek_eq_pushAll (a : Addr) : s.trapEntry.peek a = (pushAll s s.trapBytes).peek a := by
  rw [State.trapEntry_peek, Flags.toByte_or_bit4]
  rfl

/-- Each byte a trap entry pushes stays in its slot. -/
theorem State.trapEntry_stored {k : Nat} (hk : k < s.trapBytes.length) : Stored (s.pushSlot k) s.trapBytes[k] s s.trapEntry :=
  stored_of_peek_eq (pushAll_stored (by simp) s hk) (s.trapEntry_peek_eq_pushAll _)

/-- A trap entry changes SP, I and the three slots it pushes to. -/
theorem State.trapEntry_changes : Changes [.sp] [.interruptDisable]
    [stackAddr s.sp, stackAddr (s.sp - 1), stackAddr (s.sp - 2)] s s.trapEntry := by
  have hpushes := pushAll_changes s.trapBytes s
  have hflag := (pushAll s s.trapBytes).hostSetFlag_changes .interruptDisable true
  rw [State.trapEntry_eq, ← State.pushSlot_zero]
  exact ((hpushes.trans hflag).read16 _ _).setPC _

/-- The accesses of a trap entry, and that PC is the word its two last ones read (R231). -/
theorem State.trapEntry_reads_vector : ∃ lo hi, s.trapEntry.port = s.port ++
      [.write (stackAddr s.sp) (hiByte s.pc), .write (stackAddr (s.sp - 1)) (loByte s.pc),
        .write (stackAddr (s.sp - 2)) ({ s.sr with b := true } : Flags).toByte, .read 0xFFFE lo, .read 0xFFFF hi] ∧
    s.trapEntry.pc = joinBytes hi lo ∧
    (s.plain 0xFFFE = true → lo = s.peek 0xFFFE) ∧ (s.plain 0xFFFF = true → hi = s.peek 0xFFFF) := by
  obtain ⟨t, ht⟩ : ∃ t, t = pushAll s s.trapBytes := ⟨_, rfl⟩
  have hplain (a : Addr) : t.plain a = s.plain a := by rw [ht, pushAll_plain]
  have hpeek {a : Addr} (ha : 0x1FF < a.toNat) : t.peek a = s.peek a := by rw [ht, pushAll_peek_outside _ s (.inr ha)]
  have hport : t.port = s.port ++ [.write (stackAddr s.sp) (hiByte s.pc), .write (stackAddr (s.sp - 1)) (loByte s.pc),
      .write (stackAddr (s.sp - 1 - 1)) ({ s.sr with b := true } : Flags).toByte] := by
    rw [ht]; simp [State.trapBytes, pushAll]
  have htwo : s.sp - 2 = s.sp - 1 - 1 := by bv_omega
  rw [State.trapEntry_eq, ← ht, htwo]
  refine ⟨t.answer breakVectorLo, (t.memRead breakVectorLo).2.answer breakVectorHi, ?port, rfl, fun h => ?lo, fun h => ?hi⟩
  case port =>
    rw [State.setPC_port, State.read16_port, State.hostSetFlag, State.setSR_port, hport, List.append_assoc]
    rfl
  case lo => exact (t.answer_plain _ ((hplain _).trans h)).trans (hpeek (by decide))
  case hi => exact ((t.memRead _).2.answer_plain _ ((hplain _).trans h)).trans (hpeek (by decide))

end Sys2Proof.Machine
end

/-! ### BRK and RTI (R231, R232) -/
section
namespace Sys2Proof.Machine
open Sys2Proof.Claims

/-- The step of a BRK whose opcode is in plain memory: PC passes the signature byte, which is not read (R231; D10). -/
theorem step_brk_of_plain {s : State} (hplain : s.plain s.pc = true) (hop : s.peek s.pc = 0x00) :
    step s = exec .brk { s with pc := s.pc + 2, stepNo := s.stepNo + 1, port := [.read s.pc 0x00] } := by
  have htwo : s.pc + 2 = s.pc + 1 + 1 := (BitVec.add_assoc s.pc 1 1).symm
  rw [step_of_plain hplain hop, htwo]
  rfl

/-- Settles O35: BRK is a trap entry, and its format skips the signature byte. -/
theorem brkEntersThroughVector : Obligations.BrkEntersThroughVector := by
  refine ⟨encodes_of_opcode rfl, fun sig rest => decode_cons_append (operands := [sig]) rfl rest,
    fun s => step_brk_of_plain, fun s => ?exec⟩
  case exec =>
    obtain ⟨lo, hi, hport, hpc, hlo, hhi⟩ := s.trapEntry_reads_vector
    have hthree : s.sp - 3 = s.sp - 1 - 1 - 1 := by bv_omega
    refine ⟨s.trapEntry, lo, hi, exec_eq_after .brk s, hport, ?pcHigh, ?pcLow, ?status, ?sp, ?i, hpc, hlo, hhi,
      s.trapEntry_changes⟩
    case pcHigh => exact s.pushSlot_zero ▸ s.trapEntry_stored (k := 0) (by simp)
    case pcLow => exact s.trapEntry_stored (k := 1) (by simp)
    case status => exact s.trapEntry_stored (k := 2) (by simp)
    case sp => rw [hthree, State.trapEntry_sp]
    case i => rw [State.trapEntry_sr]

/-- A trap return changes no register but SP. -/
theorem State.trapReturn_regsKept (s : State) : RegsKeptBut [.sp] s s.trapReturn := by
  obtain ⟨hregs, -⟩ := pullMany_changes 3 s
  exact hregs

theorem State.trapReturn_pc (s : State) : s.trapReturn.pc = joinBytes s.pull.2.pull.2.pull.1 s.pull.2.pull.1 := rfl

/-- Settles O36: RTI is three pulls, the first of them the status. -/
theorem rtiReturns : Obligations.RtiReturns := by
  refine ⟨encodes_of_opcode rfl, fun s => ?_⟩
  have hthree : s.sp + 3 = s.sp + 1 + 1 + 1 := by bv_omega
  refine ⟨s.trapReturn, s.pull.1, s.pull.2.pull.1, s.pull.2.pull.2.pull.1, exec_eq_after .rti s, ?_⟩
  rw [byte_add_two, hthree, State.trapReturn_sr, State.trapReturn_sp]
  refine ⟨s.trapReturn_port, fun h => ?bytes, rfl, rfl, rfl, rfl, rfl, rfl, rfl, rfl, s.trapReturn_pc, s.trapReturn_regsKept,
    fun a _ => s.trapReturn_peek a⟩
  case bytes =>
    exact ⟨s.pull_fst_of_plain (h _), State.pull16_bytes_of_plain (s := s.pull.2) h⟩

/-- With the stack page plain, three pulls take back what a trap entry pushed. -/
theorem State.pullMany_trapEntry {s : State} (h : PlainStack s) :
    (pullMany s.trapEntry 3).1 = [({ s.sr with b := true } : Flags).toByte, loByte s.pc, hiByte s.pc] := by
  have hsp : s.trapEntry.sp = (pushAll s s.trapBytes).sp := by rw [State.trapEntry_eq]; rfl
  calc (pullMany s.trapEntry 3).1 = (pullMany (pushAll s s.trapBytes) 3).1 :=
        pullMany_fst_congr (fun p => (pushAll_plain _ s _).trans (h p)) (by simp) hsp s.trapEntry_peek_eq_pushAll 3
    _ = _ := pullMany_pushAll_fst s.trapBytes (by simp) (fun _ _ => h _)

/-- Settles O37: RTI pulls the three bytes BRK pushed. -/
theorem rtiUndoesBrk : Obligations.RtiUndoesBrk := by
  intro s hstack
  have hbytes := State.pullMany_trapEntry hstack
  simp only [pullMany, List.cons.injEq, and_true] at hbytes
  obtain ⟨hstatus, hlo, hhi⟩ := hbytes
  refine ⟨s.trapEntry, s.trapEntry.trapReturn, exec_eq_after .brk s, exec_eq_after .rti _, ?pc, ?sr, ?regs⟩
  case pc => rw [State.trapReturn_pc, hlo, hhi, joinBytes_hiByte_loByte]
  case sr => rw [State.trapReturn_sr, hstatus, Flags.installRti, Flags.ofByte_toByte]
  case regs => apply regsKept_of_eq <;> simp

end Sys2Proof.Machine
end

/-! ### LDA, LDX and LDY (R260 to R262) -/
section
namespace Sys2Proof.Machine
open Sys2Proof.Claims

/-- Loading an operand changes the port's record at most (R134). -/
theorem State.loadOperand_changes (s : State) (o : Operand) : Changes [] [] [] s (s.loadOperand o).2 := by
  refine ⟨?regs, fun f _ => ?flags, fun c _ => s.loadOperand_peek o c, s.loadOperand_devices o, s.loadOperand_stepNo o⟩
  case regs => exact regsKept_of_eq (s.loadOperand_a o) (s.loadOperand_x o) (s.loadOperand_y o) (s.loadOperand_sp o)
  case flags => rw [State.loadOperand_sr]

/-- An instruction that writes its operand to register `r`, with N and Z from it, follows the rule of a load. -/
theorem loadRule_of_after {f : Operand → Instr} {r : RegName}
    (hafter : ∀ o s, State.after s (f o) = ((s.loadOperand o).2.hostSetReg r (s.loadOperand o).1).setNZ (s.loadOperand o).1) :
    LoadRule f r := by
  intro o s
  have hreg : (s.after (f o)).reg r = (s.loadOperand o).1 := by
    rw [hafter, State.setNZ_reg, State.hostSetReg_reg, if_pos rfl]
  refine ⟨s.after (f o), exec_eq_after _ s, hreg, ?nz, ?pc, ?port, ?changes⟩
  case nz => rw [hreg]; exact nzFrom_of_sr (by rw [hafter, State.setNZ_sr])
  case pc => rw [hafter, State.setNZ_pc, State.hostSetReg_pc, State.loadOperand_pc]
  case port => rw [hafter, State.setNZ_port, State.hostSetReg_port]
  case changes => rw [hafter]; exact (s.loadOperand_changes o).trans (State.hostSetReg_setNZ_changes _ r _ _)

/-- Settles O43: each of the three writes its register from the operand, encoded as its rule's line says. -/
theorem loads : Obligations.Loads := by
  refine ⟨?ldaEncoding, ?lda, ⟨?ldxImm, ?ldxZp, ?ldxZpy, ?ldxAbs, ?ldxAby⟩, ?ldx,
    ⟨?ldyImm, ?ldyZp, ?ldyZpx, ?ldyAbs, ?ldyAbx⟩, ?ldy⟩
  case ldaEncoding => exact accumulatorEncoding_of_instrOpcodes (fun _ => rfl) (fun _ => rfl) (fun _ => rfl)
  case ldxImm | ldxZp | ldxZpy | ldyImm | ldyZp | ldyZpx => exact encodesByte_of_opcode (fun _ => rfl) (fun _ => rfl)
  case ldxAbs | ldxAby | ldyAbs | ldyAbx => exact encodesWord_of_opcode (fun _ => rfl) (fun _ => rfl)
  case lda | ldx | ldy => exact loadRule_of_after (fun _ _ => rfl)

end Sys2Proof.Machine
end

/-! ### STA, STX and STY (R263 to R265) -/
section
namespace Sys2Proof.Machine
open Sys2Proof.Claims

/-- A store changes the byte at the effective address alone. -/
theorem State.store_changes (s : State) (m : MemMode) (v : Byte) : Changes [] [] [(s.resolve m).1] s (s.store m v) := by
  refine ⟨?regs, fun f _ => ?flags, fun c hc => ?mem, s.store_devices m v, s.store_stepNo m v⟩
  case regs => exact regsKept_of_eq (s.store_a m v) (s.store_x m v) (s.store_y m v) (s.store_sp m v)
  case flags => rw [State.store_sr]
  case mem => rw [State.store_peek, if_neg (fun h => hc (List.mem_singleton.mpr h.1))]

/-- An instruction that leaves the state of a store of register `r` follows the rule of a store. -/
theorem storeRule_of_after {f : MemMode → Instr} {r : RegName} (h : ∀ m s, State.after s (f m) = s.store m (s.reg r)) :
    StoreRule f r := by
  intro m s
  refine ⟨s.store m (s.reg r), ?exec, stored_of_peek (s.store_peek m _), s.store_pc m _, s.store_port m _,
    s.store_changes m _⟩
  case exec => rw [exec_eq_after, h]

/-- Settles O44: each of the three is the shared store of its register, encoded as its rule's line says. -/
theorem stores : Obligations.Stores := by
  refine ⟨⟨?staZp, ?staZpx, ?staAbs, ?staAbx, ?staAby, ?staIzx, ?staIzy⟩, ?sta, ⟨?stxZp, ?stxZpy, ?stxAbs⟩, ?stx,
    ⟨?styZp, ?styZpx, ?styAbs⟩, ?sty⟩
  case staZp | staZpx | staIzx | staIzy | stxZp | stxZpy | styZp | styZpx =>
    exact encodesByte_of_opcode (fun _ => rfl) (fun _ => rfl)
  case staAbs | staAbx | staAby | stxAbs | styAbs => exact encodesWord_of_opcode (fun _ => rfl) (fun _ => rfl)
  case sta | stx | sty => exact storeRule_of_after (fun _ _ => rfl)

end Sys2Proof.Machine
end

/-! ### I masks nothing (R303) -/
section
namespace Sys2Proof.Machine
open Sys2Proof.Claims

/-- A word read away from the stack byte just pushed is the same whatever byte that was. -/
theorem State.push_read16_fst (s : State) {p q : Addr} (hp : p ≠ stackAddr s.sp) (hq : q ≠ stackAddr s.sp) (v w : Byte) :
    ((s.push v).read16 p q).1 = ((s.push w).read16 p q).1 := by
  simp [State.read16_fst, State.answer, State.push_peek, hp, hq]

/-- The status decides only the byte a trap entry pushes last, and that byte is not in the vector (R12, R305). -/
theorem State.trapEntry_setSR_pc (s : State) (p : Flags) : (s.setSR p).trapEntry.pc = s.trapEntry.pc := by
  have hvector {a : Addr} (ha : 0x1FF < a.toNat) : a ≠ stackAddr (s.push16 s.pc).sp := ne_stackAddr_of_outside (.inr ha) _
  calc (s.setSR p).trapEntry.pc
      = (((s.push16 s.pc).push (p.toByte ||| 0x10)).read16 breakVectorLo breakVectorHi).1 := by simp [State.trapEntry]
    _ = (((s.push16 s.pc).push (s.sr.toByte ||| 0x10)).read16 breakVectorLo breakVectorHi).1 :=
      State.push_read16_fst _ (hvector (by decide)) (hvector (by decide)) _ _
    _ = s.trapEntry.pc := by simp [State.trapEntry]

/-- ADC and SBC look at D alone of the control flags, and only the two pushes of the status look at I. -/
theorem ignoresInterruptDisable {i : Instr} (hphp : i ≠ .php) (hbrk : i ≠ .brk) : IgnoresFlag .interruptDisable i := by
  intro s v
  cases i with
  | php => exact absurd rfl hphp
  | brk => exact absurd rfl hbrk
  | adc o | sbc o => exact ⟨v, s.accumulate_hostSetFlag rfl v o rfl⟩
  | _ => exact ignoresControlFlag rfl rfl s v

/-- Settles O53: but for a push of the status no instruction looks at I, and BRK sets it, whatever it held. -/
theorem interruptDisableMasksNothing : Obligations.InterruptDisableMasksNothing := by
  refine ⟨fun i s v hphp hbrk => ?masks, fun s v => ?brk⟩
  case masks =>
    obtain ⟨v', h⟩ := ignoresInterruptDisable hphp hbrk s v
    exact ⟨s.after i, v', exec_eq_after i s, (exec_eq_after i _).trans (congrArg _ h)⟩
  case brk =>
    refine ⟨s.trapEntry, _, exec_eq_after .brk s, exec_eq_after .brk _, s.trapEntry_setSR_pc _, ?sr, ?sp⟩
    case sr => rw [State.after, State.trapEntry_sr, State.trapEntry_sr]
    case sp => rw [State.after, State.trapEntry_sp, State.trapEntry_sp]

end Sys2Proof.Machine
end

/-! ### Every step completes, so a run is the step iterated (R334, R335) -/
section
namespace Sys2Proof.Machine

/-- Settles O15: the fetch answers an instruction, and every instruction leaves a state. -/
theorem stepAlwaysCompletes : Obligations.StepAlwaysCompletes := fun s => ⟨_, step_eq_after s⟩

/-- The state a step leads to. -/
def State.stepped (s : State) : State := s.fetchInstr.2.after s.fetchInstr.1

theorem step_eq_stepped (s : State) : step s = .next s.stepped := step_eq_after s

theorem run_succ_of_step {M : Host.Core} {s t : M.State} (h : M.step s = .next t) (k : Nat) :
    M.run (k + 1) s = M.run k t := by
  rw [Host.Core.run, h]

/-- No step stops the run, so `k` steps are the step iterated `k` times. -/
theorem core_run_eq_iterate (k : Nat) (s : State) : core.run k s = .next (State.stepped^[k] s) := by
  induction k generalizing s with
  | zero => rfl
  | succ k ih => exact (run_succ_of_step (M := core) (step_eq_stepped s) k).trans (ih s.stepped)

/-- From `s`, the stop address is met after `k` steps, in `t`, and not before. -/
def FirstReach (stop : Addr) (k : Nat) (s t : State) : Prop :=
  t = State.stepped^[k] s ∧ t.pc = stop ∧ ∀ j < k, (State.stepped^[j] s).pc ≠ stop

section
variable {stop : Addr} {k : Nat} {s t : State}

theorem firstReach_zero_iff : FirstReach stop 0 s t ↔ t = s ∧ s.pc = stop := by
  constructor
  · rintro ⟨rfl, hpc, -⟩
    exact ⟨rfl, hpc⟩
  · rintro ⟨rfl, hpc⟩
    exact ⟨rfl, hpc, nofun⟩

theorem firstReach_succ_iff : FirstReach stop (k + 1) s t ↔ s.pc ≠ stop ∧ FirstReach stop k s.stepped t := by
  rw [FirstReach, Nat.forall_lt_succ_left]
  exact ⟨fun ⟨ht, hpc, hs, hlater⟩ => ⟨hs, ht, hpc, hlater⟩, fun ⟨hs, ht, hpc, hlater⟩ => ⟨ht, hpc, hs, hlater⟩⟩

theorem runUntil_of_pc_eq (h : s.pc = stop) (fuel : Nat) : runUntil stop fuel s = some (0, s) := by
  cases fuel <;> exact if_pos h

theorem runUntil_zero_of_pc_ne (h : s.pc ≠ stop) : runUntil stop 0 s = none := if_neg h

theorem runUntil_succ_of_pc_ne (h : s.pc ≠ stop) (fuel : Nat) :
    runUntil stop (fuel + 1) s = (runUntil stop fuel s.stepped).map (fun r => (r.1 + 1, r.2)) := by
  rw [runUntil, if_neg h, step_eq_stepped]

theorem runUntil_eq_some_iff_of_pc_eq (h : s.pc = stop) (fuel : Nat) :
    runUntil stop fuel s = some (k, t) ↔ k ≤ fuel ∧ FirstReach stop k s t := by
  rw [runUntil_of_pc_eq h]
  cases k with
  | zero => simp [firstReach_zero_iff, h, eq_comm]
  | succ k => simp [firstReach_succ_iff, h]

/-- A run is answered exactly with the first state at the stop address, when that is within the bound. -/
theorem runUntil_eq_some_iff {fuel : Nat} : runUntil stop fuel s = some (k, t) ↔ k ≤ fuel ∧ FirstReach stop k s t := by
  induction fuel generalizing k s with
  | zero =>
    by_cases hpc : s.pc = stop
    case pos => exact runUntil_eq_some_iff_of_pc_eq hpc 0
    case neg =>
      rw [runUntil_zero_of_pc_ne hpc]
      cases k with
      | zero => simp [firstReach_zero_iff, hpc]
      | succ k => simp
  | succ fuel ih =>
    by_cases hpc : s.pc = stop
    case pos => exact runUntil_eq_some_iff_of_pc_eq hpc (fuel + 1)
    case neg =>
      rw [runUntil_succ_of_pc_ne hpc]
      cases k with
      | zero => simp [firstReach_zero_iff, hpc]
      | succ k => simp [firstReach_succ_iff, hpc, ih]

end

/-- Settles O19: an answered run is at the first state at the stop address, which is an iterate of the step. -/
theorem runEndsAtStopAddress : Obligations.RunEndsAtStopAddress := by
  intro stop fuel k s t h
  obtain ⟨hk, rfl, hpc, -⟩ := runUntil_eq_some_iff.mp h
  exact ⟨hpc, hk, core_run_eq_iterate k s⟩

/-- Where a stop address is met at all, it is met for the first time. -/
theorem exists_firstReach {stop : Addr} {s : State} {n : Nat} (h : (State.stepped^[n] s).pc = stop) :
    ∃ k ≤ n, FirstReach stop k s (State.stepped^[k] s) := by
  have hmet : ∃ k, (State.stepped^[k] s).pc = stop := ⟨n, h⟩
  exact ⟨Nat.find hmet, Nat.find_min' hmet h, rfl, Nat.find_spec hmet, fun j => Nat.find_min hmet⟩

/-- Settles O54: the run is answered with the first reach, and there is one where the stop address is met at all. -/
theorem runEndsAtFirstReach : Obligations.RunEndsAtFirstReach := by
  refine fun stop fuel s => ⟨fun k t h j hj => ?first, fun n u hn hrun hpc => ?answered⟩
  case first =>
    obtain ⟨-, -, -, hearlier⟩ := runUntil_eq_some_iff.mp h
    exact ⟨_, core_run_eq_iterate j s, hearlier j hj⟩
  case answered =>
    obtain rfl : State.stepped^[n] s = u := Host.Outcome.next.inj ((core_run_eq_iterate n s).symm.trans hrun)
    obtain ⟨k, hk, hreach⟩ := exists_firstReach hpc
    exact ⟨k, _, hk, runUntil_eq_some_iff.mpr ⟨hk.trans hn, hreach⟩⟩

end Sys2Proof.Machine
end

/-! ### TAX, TAY, TXA, TYA, TSX and TXS (R266 to R271) -/
section
namespace Sys2Proof.Machine
open Sys2Proof.Claims

/-- Writing a register changes that register alone. -/
theorem State.hostSetReg_changes (s : State) (r : RegName) (v : Byte) : Changes [r] [] [] s (s.hostSetReg r v) := by
  refine ⟨fun q hq => ?regs, fun f _ => ?flags, fun c _ => s.hostSetReg_peek r v c, s.hostSetReg_devices r v,
    s.hostSetReg_stepNo r v⟩
  case regs => rw [State.hostSetReg_reg, if_neg (by simpa using hq)]
  case flags => rw [State.hostSetReg_sr]

/-- A one-byte instruction that writes register `src` to register `dst`, with N and Z from it, follows the rule of a transfer. -/
theorem transferRule_of_after {i : Instr} {op : Byte} {src dst : RegName} (hencodes : Encodes i [op])
    (hafter : ∀ s, State.after s i = (s.hostSetReg dst (s.reg src)).setNZ (s.reg src)) : TransferRule i op src dst := by
  refine ⟨hencodes, fun s => ⟨s.after i, exec_eq_after i s, ?value, ?nz, ?pc, ?port, ?changes⟩⟩
  case value => rw [hafter, State.setNZ_reg, State.hostSetReg_reg, if_pos rfl]
  case nz => exact nzFrom_of_sr (by rw [hafter, State.setNZ_sr])
  case pc => rw [hafter, State.setNZ_pc, State.hostSetReg_pc]
  case port => rw [hafter, State.setNZ_port, State.hostSetReg_port]
  case changes => rw [hafter]; exact s.hostSetReg_setNZ_changes dst _ _

/-- Settles O45: each of the six writes one register from another, and TXS writes no flag. -/
theorem registerTransfers : Obligations.RegisterTransfers := by
  refine ⟨?tax, ?tay, ?txa, ?tya, ?tsx, encodes_of_opcode rfl, fun s => ?txs⟩
  case tax | tay | txa | tya | tsx => exact transferRule_of_after (encodes_of_opcode rfl) (fun _ => rfl)
  case txs => exact ⟨_, exec_eq_after .txs s, rfl, rfl, rfl, s.hostSetReg_changes .sp s.x⟩

end Sys2Proof.Machine
end

/-! ### The seven flag instructions (R280 to R286) -/
section
namespace Sys2Proof.Machine
open Sys2Proof.Claims

theorem Flags.put_get_self (p : Flags) (f : FlagName) (v : Bool) : (p.put f v).get f = v := by
  cases f <;> rfl

/-- A one-byte instruction that writes a flag as the state port would follows the rule of a flag instruction. -/
theorem flagRule_of_after {i : Instr} {op : Byte} {f : FlagName} {v : Bool} (hencodes : Encodes i [op])
    (hafter : ∀ s, State.after s i = s.hostSetFlag f v) : FlagRule i op f v := by
  refine ⟨hencodes, fun s => ⟨s.hostSetFlag f v, ?exec, s.sr.put_get_self f v, rfl, rfl, s.hostSetFlag_changes f v⟩⟩
  case exec => rw [exec_eq_after, hafter]

/-- Settles O46: each of the seven writes its one flag. -/
theorem flagInstructions : Obligations.FlagInstructions := by
  refine ⟨?clc, ?sec, ?cli, ?sei, ?cld, ?sed, ?clv⟩
  case clc | sec | cli | sei | cld | sed | clv => exact flagRule_of_after (encodes_of_opcode rfl) (fun _ => rfl)

end Sys2Proof.Machine
end

/-! ### NOP and the undefined opcodes (R287, R290) -/
section
namespace Sys2Proof.Machine
open Sys2Proof.Claims

/-- The step of an opcode without operand bytes, in plain memory: nothing is read after it. -/
theorem step_of_plain_imp {s : State} {op : Byte} (hplain : s.plain s.pc = true) (hop : s.peek s.pc = op)
    (hformat : formatOf op = .imp) : step s = exec (decodeOp op 0 0) (s.pastOpcode op) := by
  rw [step_of_plain hplain hop, hformat]
  rfl

/-- Settles O47: NOP and UNDEF have no operand bytes and no effect, so their step is the read of the opcode. -/
theorem nopAndUndefinedOnlyAdvancePC : Obligations.NopAndUndefinedOnlyAdvancePC := by
  refine ⟨encodes_of_opcode rfl, fun s => exec_eq_after .nop s, fun op s => exec_eq_after (.undef op) s,
    fun s hplain hop => ?step⟩
  case step =>
    obtain hnop | hundef := hop
    · rw [step_of_plain_imp hplain hnop rfl, hnop]
      rfl
    · have hrow : opcodeRow (s.peek s.pc) = none := (opcodeRow_eq_none_iff _).mpr hundef
      rw [step_of_plain_imp hplain rfl (by rw [formatOf, hrow]), decodeOp_of_row_none hrow]
      rfl

end Sys2Proof.Machine
end

/-! ### The state port (R343) -/
section
namespace Sys2Proof.Machine

/-- Settles O5: each write of the port is one write of the state, whose frame is known. -/
theorem statePortReadsWhatWasWritten : Obligations.StatePortReadsWhatWasWritten := by
  refine fun s => ⟨⟨rfl, rfl, rfl, rfl⟩, ⟨rfl, rfl, rfl, rfl, rfl, rfl, rfl⟩, fun r v => ?reg,
    fun v => ⟨rfl, (Changes.refl s).setPC v⟩, fun f v => ?flag, rfl, fun v => ?status⟩
  case reg =>
    refine ⟨?_, s.hostSetReg_pc r v, s.hostSetReg_changes r v⟩
    rw [State.hostSetReg_reg, if_pos rfl]
  case flag => exact ⟨s.sr.put_get_self f v, rfl, s.hostSetFlag_changes f v⟩
  case status =>
    exact ⟨rfl, rfl, rfl, rfl, rfl, rfl, rfl, rfl, fun r _ => s.setSR_reg (Flags.ofByte v) r, fun _ _ => rfl⟩

end Sys2Proof.Machine
end

/-! ### The host's access to memory (R342) -/
section
namespace Sys2Proof.Machine

section
variable (s : State) (a : Addr) (v : Byte)

/-! A core write is, by definition, a host write noted on the port's record. -/

theorem State.hostWrite_stepNo : (s.hostWrite a v).stepNo = s.stepNo := s.memWrite_stepNo a v

theorem State.hostWrite_pc : (s.hostWrite a v).pc = s.pc := s.memWrite_pc a v

theorem State.hostWrite_port : (s.hostWrite a v).port = s.port := by
  obtain ⟨-, h⟩ | ⟨-, h⟩ := s.hostWrite_cases a v <;> rw [h]
  rfl

/-- A host write leaves everything but the byte at its address. -/
theorem State.hostWrite_changes : Changes [] [] [a] s (s.hostWrite a v) := s.memWrite_changes a v

/-- The host does not see the port's record. -/
theorem State.memWrite_hostRead (b : Addr) : (s.memWrite a v).hostRead b = (s.hostWrite a v).hostRead b := rfl

end

section
variable {s : State} {a : Addr}

theorem State.hostRead_of_not_plain (h : s.plain a = false) : s.hostRead a = Config.hostDeviceByte s.stepNo a := by
  simp [State.hostRead, h]

theorem State.hostWrite_of_not_plain (h : s.plain a = false) (v : Byte) : s.hostWrite a v = s := by
  simp [State.hostWrite, h]

theorem State.hostRead_hostWrite_of_plain (h : s.plain a = true) (v : Byte) : (s.hostWrite a v).hostRead a = v := by
  rw [State.hostRead_plain _ (by simpa using h), State.hostWrite_peek, if_pos ⟨rfl, h⟩]

theorem State.hostRead_hostWrite_other {b : Addr} (hb : b ≠ a) (v : Byte) : (s.hostWrite a v).hostRead b = s.hostRead b := by
  rw [State.hostRead, State.hostRead, State.hostWrite_plain, State.hostWrite_peek_other hb, State.hostWrite_stepNo]

end

/-- Settles O55, inside `PlainRam`, outside it, and at every other address. -/
theorem hostReadsWhatWasWritten : Obligations.HostReadsWhatWasWritten := by
  refine fun s a v => ⟨fun h => ?plain, fun h => ⟨State.hostRead_of_not_plain h, State.hostWrite_of_not_plain h v⟩,
    fun b hb => ?other, s.hostWrite_pc a v, s.hostWrite_port a v, s.hostWrite_changes a v⟩
  case plain =>
    rw [State.memRead_fst, State.answer_plain s a h, State.memWrite_hostRead]
    exact ⟨s.hostRead_plain h, s.hostRead_plain h, State.hostRead_hostWrite_of_plain h v,
      State.hostRead_hostWrite_of_plain h v⟩
  case other =>
    rw [State.memWrite_hostRead]
    exact ⟨State.hostRead_hostWrite_other hb v, State.hostRead_hostWrite_other hb v⟩

end Sys2Proof.Machine
end

/-! ### The step of an instruction of any format in plain memory (R38, R66, R333) -/
section
namespace Sys2Proof.Machine
open Sys2Proof.Claims

/-- The reads of `n` bytes of plain memory from an address on, in address order. -/
def State.readsFrom (s : State) (a : Addr) (n : Nat) : List Access :=
  (List.range n).map (fun k => .read (a + BitVec.ofNat 16 k) (s.peek (a + BitVec.ofNat 16 k)))

/-- The `n` bytes from an address on are in `PlainRam`. -/
def State.PlainFrom (s : State) (a : Addr) (n : Nat) : Prop := ∀ k < n, s.plain (a + BitVec.ofNat 16 k) = true

theorem addr_add_succ (a : Addr) (k : Nat) : a + BitVec.ofNat 16 (k + 1) = a + 1 + BitVec.ofNat 16 k := by
  rw [Nat.add_comm, BitVec.ofNat_add, BitVec.add_assoc]
  rfl

section
variable {s : State}

theorem State.readsFrom_zero (a : Addr) : s.readsFrom a 0 = [] := rfl

theorem State.readsFrom_succ (a : Addr) (n : Nat) :
    s.readsFrom a (n + 1) = .read a (s.peek a) :: s.readsFrom (a + 1) n := by
  rw [State.readsFrom, List.range_succ_eq_map, List.map_cons, List.map_map, BitVec.add_zero]
  exact congrArg _ (List.map_congr_left fun k _ => by simp only [Function.comp_apply, Nat.succ_eq_add_one, addr_add_succ])

theorem State.plainFrom_succ_iff {a : Addr} {n : Nat} :
    s.PlainFrom a (n + 1) ↔ s.plain a = true ∧ s.PlainFrom (a + 1) n := by
  rw [State.PlainFrom, Nat.forall_lt_succ_left, BitVec.add_zero]
  simp only [addr_add_succ, State.PlainFrom]

/-- The operand fetch from plain memory: the bytes a format's operand is written with, zero where it has none, one read for each
byte of memory, and PC past the operand, BRK's signature byte included (R120, R231). -/
theorem State.fetchOperands_of_plain {f : Format} (h : s.PlainFrom s.pc f.operandReads) :
    s.fetchOperands f = (((f.writtenBytes (s.peek s.pc) (s.peek (s.pc + 1))).getD 0 0,
        (f.writtenBytes (s.peek s.pc) (s.peek (s.pc + 1))).getD 1 0),
      { s with
        pc := s.pc + BitVec.ofNat 16 (formatLength f - 1), port := s.port ++ s.readsFrom s.pc f.operandReads }) := by
  cases f with
  | imp | acc | brk =>
    simp [State.fetchOperands, State.setPC, Format.operandReads, Format.writtenBytes, formatLength, State.readsFrom_zero]
  | imm | zp | zpx | zpy | izx | izy | rel =>
    obtain ⟨hbyte, -⟩ := State.plainFrom_succ_iff.mp h
    rw [State.fetchOperands, s.fetch8_of_plain hbyte]
    simp [Format.operandReads, Format.writtenBytes, formatLength, State.readsFrom_succ, State.readsFrom_zero]
  | abs | abx | aby | ind =>
    obtain ⟨hlo, hrest⟩ := State.plainFrom_succ_iff.mp h
    obtain ⟨hhi, -⟩ := State.plainFrom_succ_iff.mp hrest
    refine (State.fetchOperands_abs_of_plain hlo hhi).trans ?_
    simp [Format.operandReads, Format.writtenBytes, formatLength, State.readsFrom_succ, State.readsFrom_zero, BitVec.add_assoc]

end

/-- The decoder looks at no byte but those the operand is written with. -/
theorem decodeOp_writtenBytes (op b1 b2 : Byte) :
    decodeOp op (((formatOf op).writtenBytes b1 b2).getD 0 0) (((formatOf op).writtenBytes b1 b2).getD 1 0) =
      decodeOp op b1 b2 := by
  have h := readsBack_opcode (decodeOp_opcode op b1 b2) []
  rwa [instrOperandBytes_decodeOp, List.append_nil] at h

/-- The fetch reads the opcode and the operand bytes, of which BRK has none to read. -/
theorem fetchedBytes_eq (i : Instr) : fetchedBytes i = i.format.operandReads + 1 := by
  by_cases hbrk : i = .brk
  case pos => rw [hbrk]; rfl
  case neg =>
    have hpos := formatLength_pos i.format
    have hreads : i.format.operandReads = formatLength i.format - 1 := by
      cases hformat : i.format with
      | brk => exact absurd (eq_brk_of_format hformat) hbrk
      | _ => rfl
    rw [fetchedBytes, if_neg hbrk, instrLength, hreads]
    omega

/-- The step of plain bytes runs what they decode to, on the state past them. -/
theorem step_of_plainFrom {s : State} {op : Byte} (hop : s.peek s.pc = op)
    (hplain : s.PlainFrom s.pc ((formatOf op).operandReads + 1)) :
    step s = exec (decodeOp op (s.peek (s.pc + 1)) (s.peek (s.pc + 2))) { s with
      pc := s.pc + BitVec.ofNat 16 (formatLength (formatOf op))
      stepNo := s.stepNo + 1
      port := s.readsFrom s.pc ((formatOf op).operandReads + 1) } := by
  obtain ⟨hpc, hoperands⟩ := State.plainFrom_succ_iff.mp hplain
  have htwo : s.pc + 2 = s.pc + 1 + 1 := (BitVec.add_assoc s.pc 1 1).symm
  have hlength : s.pc + BitVec.ofNat 16 (formatLength (formatOf op)) =
      s.pc + 1 + BitVec.ofNat 16 (formatLength (formatOf op) - 1) := by
    rw [← addr_add_succ, Nat.sub_add_cancel (formatLength_pos _)]
  rw [step_of_plain hpc hop, State.fetchOperands_of_plain (s := s.pastOpcode op) hoperands, State.readsFrom_succ, hop, htwo,
    hlength, ← decodeOp_writtenBytes op (s.peek (s.pc + 1)) (s.peek (s.pc + 1 + 1))]
  rfl

/-- Settles O16: what is decoded has the format of its opcode byte, and so is as long as the fetch. -/
theorem stepRunsDecodedInstruction : Obligations.StepRunsDecodedInstruction := by
  intro s i rest hdecode hplain
  obtain ⟨op, operands, hbytes, -, hi⟩ := exists_operands_of_decode hdecode
  obtain ⟨hop, htail⟩ := List.cons.inj hbytes
  have hformat : i.format = formatOf op := hi ▸ decodeOp_format op _ _
  rw [← htail] at hi
  rw [fetchedBytes_eq, hformat] at hplain ⊢
  rw [instrLength, hformat, hi]
  exact step_of_plainFrom hop hplain

end Sys2Proof.Machine
end
